-- ==== Sys2Proof/Word.lean ====
section
/-! DEFINITION. The word types of the CK8 block (00_scope.md R8, 10_state.md R26).

Bits are numbered from 0, the least significant, upward; `a ++ b` puts `a` in the high bits (R8), as `BitVec`
append does. -/

namespace Sys2Proof

/-- A byte, `u8` (R8). -/
abbrev Byte := BitVec 8

/-- A 16-bit pattern, read as `u16` or, by two's complement, as `i16` (R8). -/
abbrev Half := BitVec 16

/-- An IEEE 754 binary64 pattern: bit 63 sign, bits 62:52 biased exponent, bits 51:0 fraction (R26). -/
abbrev F64 := BitVec 64

/-- A frame: exactly `FRAME_LEN` = 10 bytes, byte 0 first (30_encoding.md R70). -/
abbrev Frame := Vector Byte 10

end Sys2Proof
end

