-- ==== Sys2Proof/Machine/Operands.lean ====
section
/-! DEFINITION. Operand forms: how multi-byte values lie in byte strings (20_memory.md R57, R59, R61,
30_encoding.md R73, R80). Every multi-byte quantity of the block is big-endian. -/

namespace Sys2Proof.Machine

/-- `v[15:8]` (R61, R73). -/
def hiByte (v : Half) : Byte := v.extractLsb' 8 8

/-- `v[7:0]` (R61, R73). -/
def loByte (v : Half) : Byte := v.extractLsb' 0 8

/-- `hi ++ lo`, the 16-bit pattern of two received bytes (R73); read as i16 it is R73's `sext_16(hi ++ lo)`. -/
def ofHiLo (hi lo : Byte) : Half := hi ++ lo

/-- The two bytes of a 16-bit value, big-endian (R57). -/
def bytes16 (v : Half) : List Byte := [hiByte v, loByte v]

/-- The eight bytes of a binary64 pattern, most significant first (R59, R80). -/
def bytes64 (v : F64) : List Byte :=
  [v.extractLsb' 56 8, v.extractLsb' 48 8, v.extractLsb' 40 8, v.extractLsb' 32 8,
   v.extractLsb' 24 8, v.extractLsb' 16 8, v.extractLsb' 8 8, v.extractLsb' 0 8]

/-- One u8 operand off the front of a command's bytes. -/
def takeByte : List Byte → Option (Byte × List Byte)
  | b :: rest => some (b, rest)
  | [] => none

/-- One 16-bit operand off the front, big-endian (R59). -/
def takeHalf : List Byte → Option (Half × List Byte)
  | hi :: lo :: rest => some (ofHiLo hi lo, rest)
  | _ => none

/-- One binary64 operand off the front: its 8-byte pattern, most significant byte first (R80). -/
def takeF64 : List Byte → Option (F64 × List Byte)
  | b7 :: b6 :: b5 :: b4 :: b3 :: b2 :: b1 :: b0 :: rest =>
    some (b7 ++ b6 ++ b5 ++ b4 ++ b3 ++ b2 ++ b1 ++ b0, rest)
  | _ => none

/-- `i` when no operand byte is left over. -/
def noMore {α : Type} (i : α) : List Byte → Option α
  | [] => some i
  | _ :: _ => none

end Sys2Proof.Machine
end

