-- ==== Sys2Proof/Syntax.lean ====
section
/-! DEFINITION. The nine commands of the block: one constructor per row of spec/opcode_table.json
(30_encoding.md R81). -/

namespace Sys2Proof

/-- A command of the block (30_encoding.md R80 to R82). Every operand has exactly the width its field has in the
command string, and R82 admits every pattern of every field ("any u8", "any i16", "any binary64 pattern"): a channel
number of 4 or more, say, is a well-formed operand on which the command raises BAD_CHANNEL. -/
inductive Instr where
  /-- CONFIGURE, op 0x01 (43_configure.md R190). -/
  | configure (alg : Byte) (hl hw radius rated : F64) (midmask mid0 mid1 mid2 mid3 : Byte)
  /-- CS_INIT, op 0x10 (40_checksum.md R104). -/
  | csInit
  /-- CS_BYTE, op 0x11 (40_checksum.md R105). -/
  | csByte (b : Byte)
  /-- ENCODE, op 0x20 (42_frame_codec.md R152). `vel` is an i16 pattern. -/
  | encode (ch mid mode : Byte) (vel : Half) (accel : Byte)
  /-- ENCODE_WHEEL, op 0x21 (42_frame_codec.md R153). -/
  | encodeWheel (ch mode : Byte)
  /-- RX_CLEAR, op 0x30 (42_frame_codec.md R155). -/
  | rxClear (ch : Byte)
  /-- RX_PUSH, op 0x31 (42_frame_codec.md R156). -/
  | rxPush (ch b : Byte)
  /-- DECODE, op 0x32 (42_frame_codec.md R157). -/
  | decode (ch : Byte)
  /-- SOLVE, op 0x40 (41_kinematics.md R126). -/
  | solve (vx vy wz : F64)
  deriving DecidableEq, Repr

end Sys2Proof
end

