-- ==== Sys2Proof/WellFormed.lean ====
section
/-! DEFINITION. Which command strings are legal (30_encoding.md R81, R83).

No `Instr` term is ill formed: its operands have the widths of their fields and R82 admits every pattern. What can be
ill formed is the command STRING the host submits: R83 names two ways, and the empty string is a third (60 R213).
This file says so from the command map alone, without the decoder; that the decoder accepts exactly these strings is
Obligations.WellFormedStringsAreThoseThatDecode. -/

namespace Sys2Proof

/-- The length in bytes that R81 gives each op code; none for the 247 op codes it does not list. -/
def commandLength (op : Byte) : Option Nat :=
  match op.toNat with
  | 0x01 => some 39
  | 0x10 => some 1
  | 0x11 => some 2
  | 0x20 => some 7
  | 0x21 => some 3
  | 0x30 => some 2
  | 0x31 => some 3
  | 0x32 => some 2
  | 0x40 => some 25
  | _ => none

/-- A legal command string: not empty, byte 0 a listed op code, and as long as the map says (R83, R213). -/
def wellFormedCommand (c : List Byte) : Bool :=
  match c with
  | [] => false
  | op :: operands => commandLength op == some (operands.length + 1)

end Sys2Proof
end

