-- ==== Sys2Proof/Decode.lean ====
section
/-! DEFINITION. The decoder, total on any byte string, and after it the encoder, both from the command map
(30_encoding.md R80 to R85) and the operand offsets of spec/opcode_table.json. -/

namespace Sys2Proof

open Sys2Proof.Machine

/-- Why a byte string is no command (R83, 60_exceptions.md R213). The block answers ILLEGAL_OP to each. -/
inductive CommandError where
  /-- The empty command string. -/
  | emptyCommand
  /-- Byte 0 is none of the nine op codes. -/
  | unknownOp (op : Byte)
  /-- The op code is listed, and the string has not the length R81 gives it. -/
  | wrongLength (op : Byte) (operandBytes : Nat)
  deriving DecidableEq, Repr

/-- Format CFG: bytes 1 to 38 of CONFIGURE. -/
def parseConfigure (c : List Byte) : Option Instr := do
  let (alg, c) ← takeByte c
  let (hl, c) ← takeF64 c
  let (hw, c) ← takeF64 c
  let (radius, c) ← takeF64 c
  let (rated, c) ← takeF64 c
  let (midmask, c) ← takeByte c
  let (mid0, c) ← takeByte c
  let (mid1, c) ← takeByte c
  let (mid2, c) ← takeByte c
  let (mid3, c) ← takeByte c
  noMore (.configure alg hl hw radius rated midmask mid0 mid1 mid2 mid3) c

/-- Format OP: no operand bytes. -/
def parseCsInit (c : List Byte) : Option Instr :=
  noMore .csInit c

/-- Format OPB: byte 1 of CS_BYTE. -/
def parseCsByte (c : List Byte) : Option Instr := do
  let (b, c) ← takeByte c
  noMore (.csByte b) c

/-- Format ENC: bytes 1 to 6 of ENCODE. -/
def parseEncode (c : List Byte) : Option Instr := do
  let (ch, c) ← takeByte c
  let (mid, c) ← takeByte c
  let (mode, c) ← takeByte c
  let (vel, c) ← takeHalf c
  let (accel, c) ← takeByte c
  noMore (.encode ch mid mode vel accel) c

/-- Format ENW: bytes 1 and 2 of ENCODE_WHEEL. -/
def parseEncodeWheel (c : List Byte) : Option Instr := do
  let (ch, c) ← takeByte c
  let (mode, c) ← takeByte c
  noMore (.encodeWheel ch mode) c

/-- Format CH: byte 1 of RX_CLEAR. -/
def parseRxClear (c : List Byte) : Option Instr := do
  let (ch, c) ← takeByte c
  noMore (.rxClear ch) c

/-- Format CHB: bytes 1 and 2 of RX_PUSH. -/
def parseRxPush (c : List Byte) : Option Instr := do
  let (ch, c) ← takeByte c
  let (b, c) ← takeByte c
  noMore (.rxPush ch b) c

/-- Format CH: byte 1 of DECODE. -/
def parseDecode (c : List Byte) : Option Instr := do
  let (ch, c) ← takeByte c
  noMore (.decode ch) c

/-- Format SOL: bytes 1 to 24 of SOLVE. -/
def parseSolve (c : List Byte) : Option Instr := do
  let (vx, c) ← takeF64 c
  let (vy, c) ← takeF64 c
  let (wz, c) ← takeF64 c
  noMore (.solve vx vy wz) c

/-- The operand parser of an op code, by the command map R81; none for an unlisted op code (R83). -/
def operandParser (op : Byte) : Option (List Byte → Option Instr) :=
  if op = 0x01#8 then some parseConfigure
  else if op = 0x10#8 then some parseCsInit
  else if op = 0x11#8 then some parseCsByte
  else if op = 0x20#8 then some parseEncode
  else if op = 0x21#8 then some parseEncodeWheel
  else if op = 0x30#8 then some parseRxClear
  else if op = 0x31#8 then some parseRxPush
  else if op = 0x32#8 then some parseDecode
  else if op = 0x40#8 then some parseSolve
  else none

/-- The command a byte string stands for, or by name why it is none (R80, R83, R213). -/
def decode (c : List Byte) : Except CommandError Instr :=
  match c with
  | [] => .error .emptyCommand
  | op :: operands =>
    match operandParser op with
    | none => .error (.unknownOp op)
    | some parse =>
      match parse operands with
      | none => .error (.wrongLength op operands.length)
      | some i => .ok i

/-- The byte string of a command (R80, R81): op code, then the operands in the map's order, big-endian. -/
def encode (i : Instr) : List Byte :=
  match i with
  | .configure alg hl hw radius rated midmask mid0 mid1 mid2 mid3 =>
    [0x01#8, alg] ++ bytes64 hl ++ bytes64 hw ++ bytes64 radius ++ bytes64 rated
      ++ [midmask, mid0, mid1, mid2, mid3]
  | .csInit => [0x10#8]
  | .csByte b => [0x11#8, b]
  | .encode ch mid mode vel accel => [0x20#8, ch, mid, mode] ++ bytes16 vel ++ [accel]
  | .encodeWheel ch mode => [0x21#8, ch, mode]
  | .rxClear ch => [0x30#8, ch]
  | .rxPush ch b => [0x31#8, ch, b]
  | .decode ch => [0x32#8, ch]
  | .solve vx vy wz => [0x40#8] ++ bytes64 vx ++ bytes64 vy ++ bytes64 wz

/-- The command string whose bits are `w`, byte 0 in bits 7:0, byte 1 in bits 15:8 and so on, the bits from `nbits` up
being zero. It has the length R81 gives its op code (an unlisted op code: the bytes of `nbits`). The opcode table gives
every row 8 bits, so its operand bytes are zeros (log 12). -/
def tableCommand (nbits w : Nat) : List Byte :=
  let v := w % 2 ^ nbits
  let given := (nbits + 7) / 8
  let length := max given ((commandLength (BitVec.ofNat 8 v)).getD given)
  (List.range length).map fun k => BitVec.ofNat 8 (v / 256 ^ k)

/-- What the decoder reads from the word of an opcode-table row. -/
def decodeTableWord (nbits w : Nat) : Option Instr :=
  match decode (tableCommand nbits w) with
  | .ok i => some i
  | .error _ => none

end Sys2Proof
end

