-- ==== Sys2Proof/Config.lean ====
section
/-! DEFINITION. The implementation parameters of 00_scope.md R7, and the model's free value.

`VEL_SCALE` is OPEN (R7, D6): it is a field of the machine's State and not a constant here; only the spec's default
for it is. `T_RESP` and `EXPECT_REPLY` are the host's (60_exceptions.md R231, R235). -/

namespace Sys2Proof

/-- `NCH` = `NWHEEL` = 4: one frame channel per wheel (R7, D7). -/
abbrev Config.nch : Nat := 4

/-- `CRC_POLY` (R7). -/
def Config.crcPoly : Byte := 0x31#8

/-- `XOR_INIT` and `CRC_INIT`, both 0x00 (R7, 40_checksum.md R101). -/
def Config.checksumInit : Byte := 0x00#8

/-- `PI64`: the binary64 value nearest π (R7, D4). -/
def Config.pi64 : F64 := 0x400921FB54442D18#64

/-- The default of the OPEN parameter `VEL_SCALE`: 1.0 (R7, D6). -/
def Config.velScaleDefault : F64 := 0x3FF0000000000000#64

/-- `RX_LEN_MAX`: the receive counter saturates here (R7, D8). -/
def Config.rxLenMax : Byte := 255#8

/-- FREE VALUE (DESIGN CHOICE, log 5): the integer that `roundHalfAway` gives for an infinity or a NaN. R11 defines
`roundHalfAway` by nearness and says nothing of a value that is near no integer. It can be asked for only under a
`VEL_SCALE` other than the default. Safe: nothing constrains it. -/
opaque Config.freeRound : F64 → Int

end Sys2Proof
end

