-- ==== Sys2Proof/Machine/Binary64.lean ====
section
/-! DEFINITION. The binary64 primitives of 00_scope.md R11: IEEE 754, round to nearest, ties to even.

Each operation computes the exact result and rounds it once. The magnitude of a finite pattern is a whole number of
units of 2^-1074, the least subnormal: so exact sums, products and quotients are integers and fractions of them. -/

namespace Sys2Proof.Machine

/-- Bit 63. -/
def signBit (x : F64) : Bool := x.getLsbD 63

/-- Bits 62:52, the biased exponent. -/
def expField (x : F64) : Nat := x.toNat / 2 ^ 52 % 2048

/-- Bits 51:0, the fraction. -/
def fracField (x : F64) : Nat := x.toNat % 2 ^ 52

/-- The pattern with sign `neg` and bits 62:0 `m`. -/
def ofSignMag (neg : Bool) (m : Nat) : F64 :=
  BitVec.ofNat 64 ((if neg then 2 ^ 63 else 0) + m)

/-- Bits 62:0 of an infinity. -/
def infMag : Nat := 0x7FF0000000000000

/-- The NaN an invalid operation gives: the quiet NaN of 95_test_vectors.md. No NaN reaches a register, so its payload
never matters (93_implementation_defined.md item 17; DESIGN CHOICE, log 4). -/
def quietNaN : F64 := 0x7FF8000000000000#64

/-- True unless the pattern is an infinity or a NaN (R11). -/
def isFinite (x : F64) : Bool := expField x != 2047

/-- A NaN pattern. -/
def isNaN (x : F64) : Bool := expField x == 2047 && fracField x != 0

/-- An infinity. -/
def isInf (x : F64) : Bool := expField x == 2047 && fracField x == 0

/-- A zero of either sign. -/
def isZero (x : F64) : Bool := expField x == 0 && fracField x == 0

/-- The magnitude of a finite pattern, in units of 2^-1074. -/
def mag (x : F64) : Nat :=
  if expField x = 0 then fracField x else (2 ^ 52 + fracField x) * 2 ^ (expField x - 1)

/-- The value of a finite pattern, in units of 2^-1074. -/
def val (x : F64) : Int := if signBit x then -(mag x : Int) else mag x

/-- Bits 62:0 of the binary64 value nearest `n / d` units of 2^-1074, for `d > 0`: round to nearest, ties to even, and
an infinity where that value would exceed the greatest finite one. The quotient is taken in the unit `2^k` that leaves
at most 53 bits; a carry out of the fraction runs into the exponent field, as it should. -/
def roundMag (n d : Nat) : Nat :=
  let k := Nat.log2 (n / d) - 52
  let unit := d * 2 ^ k
  let q := n / unit
  let r := n % unit
  let q' := if unit < 2 * r ∨ (unit = 2 * r ∧ q % 2 = 1) then q + 1 else q
  min (k * 2 ^ 52 + q') infMag

/-- The rounding of an exact value `z`, in units of 2^-1074; `zeroSign` is the sign of an exact zero. -/
def roundInt (zeroSign : Bool) (z : Int) : F64 :=
  if z = 0 then ofSignMag zeroSign 0 else ofSignMag (z < 0) (roundMag z.natAbs 1)

/-- The opposite sign (exact). -/
def fneg (x : F64) : F64 := x ^^^ 0x8000000000000000#64

/-- `fabs`, exact (R11). -/
def fabs (x : F64) : F64 := x &&& 0x7FFFFFFFFFFFFFFF#64

/-- `fadd` (R11). An exact zero sum of opposite signs is +0, as IEEE 754 has it when rounding to nearest (log 17). -/
def fadd (a b : F64) : F64 :=
  if isNaN a || isNaN b then quietNaN
  else if isInf a then (if isInf b && (signBit a != signBit b) then quietNaN else a)
  else if isInf b then b
  else roundInt (signBit a && signBit b) (val a + val b)

/-- `fsub` (R11): the sum with the second operand's sign reversed. -/
def fsub (a b : F64) : F64 := fadd a (fneg b)

/-- `fmul` (R11), infinities as IEEE 754 has them (log 17). -/
def fmul (a b : F64) : F64 :=
  let neg := signBit a != signBit b
  if isNaN a || isNaN b then quietNaN
  else if isInf a || isInf b then (if isZero a || isZero b then quietNaN else ofSignMag neg infMag)
  else ofSignMag neg (roundMag (mag a * mag b) (2 ^ 1074))

/-- `fdiv` (R11), infinities and zero divisors as IEEE 754 has them (log 17). -/
def fdiv (a b : F64) : F64 :=
  let neg := signBit a != signBit b
  if isNaN a || isNaN b then quietNaN
  else if isInf a then (if isInf b then quietNaN else ofSignMag neg infMag)
  else if isInf b then ofSignMag neg 0
  else if isZero b then (if isZero a then quietNaN else ofSignMag neg infMag)
  else ofSignMag neg (roundMag (mag a * 2 ^ 1074) (mag b))

/-- A number in the order of the values of the patterns that are not NaN; the two zeros share one. -/
def orderKey (x : F64) : Int :=
  let m : Int := (x.toNat % 2 ^ 63 : Nat)
  if signBit x then -m else m

/-- `fgt(a, b)`: a > b, false when either is a NaN (R11). -/
def fgt (a b : F64) : Bool := !isNaN a && !isNaN b && decide (orderKey b < orderKey a)

/-- The larger of two values that are not NaN. -/
def fmax (a b : F64) : F64 := if fgt b a then b else a

/-- `fmax4`: the largest of four values that are not NaN (R11). -/
def fmax4 (a b c d : F64) : F64 := fmax (fmax (fmax a b) c) d

/-- `roundHalfAway` (R11): the integer nearest a finite value, halfway cases away from zero. Of a value that is not
finite R11 states none: the free value (log 5). -/
def roundHalfAway (x : F64) : Int :=
  if isFinite x then
    let n : Nat := (2 * mag x + 2 ^ 1074) / 2 ^ 1075
    if signBit x then -(n : Int) else n
  else Config.freeRound x

/-- 0.0. -/
def f64Zero : F64 := 0x0000000000000000#64

/-- 2.0. -/
def f64Two : F64 := 0x4000000000000000#64

/-- 60.0. -/
def f64Sixty : F64 := 0x404E000000000000#64

/-- 32767.0, the greatest i16. -/
def f64MaxWire : F64 := 0x40DFFFC000000000#64

end Sys2Proof.Machine
end

