-- ==== Sys2Proof/Machine/State.lean ====
section
/-! DEFINITION. The state of the block (10_state.md R20 to R35), its reset value (70_reset_and_hazards.md R260), and
the reasons a step can stop.

"No value" (R23): the spec's table gives registers S2 to S9, S13 to S15, S17 and S20 the reset value "no value", and
says that "a model represents such a register as `Option` and treats a read of `none` as a model fault". Such an
Option is the spec's own state (log 1). -/

namespace Sys2Proof.Machine

/-- The checksum algorithm, `CFG_ALG` (S2; R25, 40_checksum.md R100): 0 = XOR, 1 = CRC8. -/
inductive Alg where
  | xor
  | crc8
  deriving DecidableEq, Repr

/-- The configuration registers S2 to S9 (R25, R26). Only CONFIGURE writes them, all together (43_configure.md R190),
and a failed CONFIGURE leaves none of them a value (R194): so State holds one Option of this record (log 10). -/
structure ConfigRegs where
  /-- S2 `CFG_ALG`. -/
  alg : Alg
  /-- S3 `CFG_HL`, metres. -/
  hl : F64
  /-- S4 `CFG_HW`, metres. -/
  hw : F64
  /-- S5 `CFG_RC`, metres. -/
  rc : F64
  /-- S6 `CFG_RADIUS`, metres. -/
  radius : F64
  /-- S7 `CFG_RATED`, rpm. -/
  rated : F64
  /-- S8 `CFG_LIMIT`, rad/s. -/
  limit : F64
  /-- S9 `CFG_MID[0..3]`. -/
  mid : Vector Byte 4
  deriving DecidableEq, Repr

/-- The KTU data registers S13 and S14, in the order FR, FL, BR, BL (R28). SOLVE writes all eight in one command, so
State holds one Option of this record (log 10). -/
structure KinRegs where
  /-- S13 `WRAD[0..3]`, rad/s. -/
  wrad : Vector F64 4
  /-- S14 `WSP[0..3]`, i16 patterns in wire units. -/
  wsp : Vector Half 4
  deriving DecidableEq, Repr

/-- The Telemetry record S20 (R31). -/
structure Telemetry where
  /-- `MID`, u8. -/
  mid : Byte
  /-- `MODE`, u8, never interpreted. -/
  mode : Byte
  /-- `TORQUE`, an i16 pattern. -/
  torque : Half
  /-- `VEL`, an i16 pattern, rpm. -/
  vel : Half
  /-- `TEMP`, u8, degrees Celsius. -/
  temp : Byte
  /-- `POS`, degrees 0..360, held in 9 bits. -/
  pos : BitVec 9
  /-- `ERR`, u8, never interpreted. -/
  err : Byte
  deriving DecidableEq, Repr

/-- One frame channel of the FCU (R30). The channels share no state. -/
structure Channel where
  /-- S15 `TXF[ch][0..9]`, the last encoded request. -/
  txf : Option Frame
  /-- S16 `TX_VALID[ch]`. -/
  txValid : Bool
  /-- S17 `RXB[ch][0..9]`; readable only below `min(RX_LEN, 10)` (R32). -/
  rxb : Vector (Option Byte) 10
  /-- S18 `RX_LEN[ch]`, saturating at 255. -/
  rxLen : Byte
  /-- S19 `TEL_VALID[ch]`. -/
  telValid : Bool
  /-- S20 `TEL[ch]`. -/
  tel : Option Telemetry
  deriving DecidableEq, Repr

/-- What the host hands the block (20_memory.md R53, 70_reset_and_hazards.md R262). -/
inductive Input where
  /-- A command string on the command port: any bytes (30_encoding.md R80, R83). -/
  | command (c : List Byte)
  /-- Reset, asserted between commands. -/
  | reset
  deriving DecidableEq, Repr

/-- The whole state: S1 to S21 (R23), and after them three fields of the MODEL (log 2, 6, 7). -/
structure State where
  /-- S1 `CONFIGURED`. -/
  configured : Bool
  /-- S2 to S9. -/
  cfg : Option ConfigRegs
  /-- S10 `CS_ACC`. -/
  csAcc : Byte
  /-- S11 `KT_VALID`. -/
  ktValid : Bool
  /-- S12 `KT_SAT`. -/
  ktSat : Bool
  /-- S13 and S14. -/
  kt : Option KinRegs
  /-- S15 to S20, per channel. -/
  chans : Vector Channel 4
  /-- S21 `STATUS.LAST_ERR`, 4 bits. -/
  lastErr : BitVec 4
  /-- The OPEN parameter `VEL_SCALE` (00_scope.md R7, D6), a binary64 value. Nothing writes it. -/
  velScale : F64
  /-- What the host will hand the block next, in order. -/
  inputs : List Input
  /-- The responses the block has returned, oldest first (30_encoding.md R84, 60_exceptions.md R240). -/
  responses : List (List Byte)
  deriving DecidableEq, Repr

/-- Why a step stops: a read of a register that holds no readable value, the one thing "a model fault is reserved for"
(60_exceptions.md R219, 10_state.md R34). In each case the machine stops where the spec gives the read no meaning, so
each is safe. No step from a state that meets the invariant of Sys2Proof/Safety.lean raises one. -/
inductive Fault where
  /-- A configuration register S2 to S9 read while it holds no value: raised by CS_BYTE, ENCODE, ENCODE_WHEEL, DECODE
  and SOLVE in a state no run reaches, and by a host's read of the port. Safe. -/
  | noConfigValue
  /-- `WRAD` or `WSP` read while `KT_VALID` = 0 or without a value: raised by ENCODE_WHEEL in a state no run reaches,
  and by a host's read of the port. Safe. -/
  | noSetpointValue
  /-- `RXB[ch][i]` read with `i` not below `min(RX_LEN[ch], 10)`, or without a value: raised by DECODE in a state no run
  reaches, and by a host's read of the port. Safe. -/
  | noRxByte
  /-- `TXF[ch]` read while `TX_VALID[ch]` = 0 or without a value: raised by a host's read of the port only. Safe. -/
  | noTxFrame
  /-- `TEL[ch]` read while `TEL_VALID[ch]` = 0 or without a value: raised by a host's read of the port only. Safe. -/
  | noTelemetry
  deriving DecidableEq, Repr

/-- Why a command is refused. "A command is never refused: every byte string has a defined response"
(60_exceptions.md R219), so no meaning answers with this. -/
inductive Refusal where
  /-- The constructor the host's interface asks for; raised by no arm of `exec`. Safe. -/
  | notModelled (mnemonic : String)
  deriving DecidableEq, Repr

/-- A channel after reset (R260). -/
def Channel.reset : Channel where
  txf := none
  txValid := false
  rxb := Vector.replicate 10 none
  rxLen := 0#8
  telValid := false
  tel := none

/-- The block right after reset: the "reset value" column of 10_state.md R23 (70_reset_and_hazards.md R260). The model's
own fields: `VEL_SCALE` at the spec's default 1 (log 2), no input pending (log 6), no response returned (log 7). -/
def State.reset : State where
  configured := false
  cfg := none
  csAcc := 0x00#8
  ktValid := false
  ktSat := false
  kt := none
  chans := Vector.replicate 4 Channel.reset
  lastErr := 0#4
  velScale := Config.velScaleDefault
  inputs := []
  responses := []

end Sys2Proof.Machine
end

