-- ==== Sys2Proof/Machine/Flags.lean ====
section
/-! DEFINITION. Status computations: the error codes and the status byte (60_exceptions.md R211, 30_encoding.md R84).
The one other flag computation, `KT_SAT`, is part of the saturation rule in Machine/Kinematics.lean. -/

namespace Sys2Proof.Machine

/-- The errors a command raises (R211). -/
inductive ErrCode where
  | configurationError
  | checksumMismatch
  | shortRead
  | malformedLength
  | notConfigured
  | illegalOp
  | nonFinite
  | badChannel
  | noSetpoint
  deriving DecidableEq, Repr

/-- The 4-bit code of an error (R211). Code 0 is OK; 10 to 15 are never produced. -/
def errCode (e : ErrCode) : BitVec 4 :=
  match e with
  | .configurationError => 1#4
  | .checksumMismatch => 2#4
  | .shortRead => 3#4
  | .malformedLength => 4#4
  | .notConfigured => 5#4
  | .illegalOp => 6#4
  | .nonFinite => 7#4
  | .badChannel => 8#4
  | .noSetpoint => 9#4

/-- Byte 0 of a response: bits 3:0 the code, bits 7:4 zero (R84). -/
def statusByte (code : BitVec 4) : Byte := code.setWidth 8

/-- A flag as a response byte: 0x00 or 0x01 (R84). -/
def flagByte (b : Bool) : Byte := if b then 0x01#8 else 0x00#8

end Sys2Proof.Machine
end

