-- ==== Sys2Proof/Machine/Ops.lean ====
section
/-! DEFINITION. The shared operations of the commands: answering, raising an error, the checks every command begins
with, and the reads and writes of registers and channels.

Raising an error is the block's only exception mechanism (60_exceptions.md R210): no trap, no handler, no saved
context, so there is no return from one either (R217). -/

namespace Sys2Proof.Machine

open Host (Outcome)

/-- The three outcomes of a command. -/
abbrev Result := Outcome State Fault Refusal

/-- `ok(data)` (00_scope.md R10): the command ends with no error; `LAST_ERR` is 0 and the response is the status byte 0
followed by `data` (30_encoding.md R84). -/
def ok (data : List Byte) (s : State) : Result :=
  .next { s with
    lastErr := 0#4
    responses := s.responses ++ [statusByte 0#4 :: data] }

/-- `raise E` (00_scope.md R10): the command ends with error E; `LAST_ERR` and the response's one byte are its code
(R210, R84), and nothing else is written (R214). A rule's writes before its `raise` (R215) are made to `s` first. -/
def raise (e : ErrCode) (s : State) : Result :=
  .next { s with
    lastErr := errCode e
    responses := s.responses ++ [[statusByte (errCode e)]] }

/-- `if CONFIGURED = 0: raise NOT_CONFIGURED` (R212), then the rest of the command. -/
def ifConfigured (s : State) (rest : Result) : Result :=
  if s.configured then rest else raise .notConfigured s

/-- `if ch >= NCH: raise BAD_CHANNEL` (30_encoding.md R82), then the rest of the command on the channel. -/
def withChannel (ch : Byte) (s : State) (rest : Fin Config.nch → Result) : Result :=
  if h : ch.toNat < Config.nch then rest ⟨ch.toNat, h⟩ else raise .badChannel s

/-- Go on with the value a register read gives; a read of a register without value is a model fault (R219, R34). -/
def withRead {α : Type} (r : Except Fault α) (rest : α → Result) : Result :=
  match r with
  | .ok a => rest a
  | .error f => .fault f

/-- The configuration registers (10_state.md R25). -/
def readConfig (s : State) : Except Fault ConfigRegs :=
  match s.cfg with
  | some c => .ok c
  | none => .error .noConfigValue

/-- `WRAD` and `WSP`, readable while `KT_VALID` = 1 (10_state.md R29, R34). -/
def readSetpoints (s : State) : Except Fault KinRegs :=
  match s.ktValid, s.kt with
  | true, some k => .ok k
  | _, _ => .error .noSetpointValue

/-- Channel `c` (10_state.md R30). -/
def chanOf (s : State) (c : Fin Config.nch) : Channel := s.chans[c]

/-- Write channel `c`, leaving the others (R30: "The channels share no state"). -/
def setChan (s : State) (c : Fin Config.nch) (k : Channel) : State :=
  { s with chans := s.chans.set c k }

/-- `TXF[ch] <- f; TX_VALID[ch] <- 1` (42_frame_codec.md R152, R153). -/
def latchTx (s : State) (c : Fin Config.nch) (f : Frame) : State :=
  setChan s c { chanOf s c with txf := some f, txValid := true }

/-- `TEL[ch] <- t; TEL_VALID[ch] <- 1` (42_frame_codec.md R157). -/
def latchTel (s : State) (c : Fin Config.nch) (t : Telemetry) : State :=
  setChan s c { chanOf s c with tel := some t, telValid := true }

/-- `TEL_VALID[ch] <- 0`: telemetry "unavailable", the old record left in place (R159, R215, D11). -/
def dropTel (s : State) (c : Fin Config.nch) : State :=
  setChan s c { chanOf s c with telValid := false }

/-- `RXB[ch][i]`, readable for `i < min(RX_LEN[ch], 10)` (10_state.md R32, R34). -/
def readRx (k : Channel) (i : Fin 10) : Except Fault Byte :=
  if i.val < min k.rxLen.toNat 10 then
    match k.rxb[i] with
    | some b => .ok b
    | none => .error .noRxByte
  else .error .noRxByte

/-- The whole receive buffer `RXB[ch][0..9]`, byte 0 first (20_memory.md R60). -/
def readRxFrame (k : Channel) : Except Fault Frame := do
  let b0 ← readRx k 0
  let b1 ← readRx k 1
  let b2 ← readRx k 2
  let b3 ← readRx k 3
  let b4 ← readRx k 4
  let b5 ← readRx k 5
  let b6 ← readRx k 6
  let b7 ← readRx k 7
  let b8 ← readRx k 8
  let b9 ← readRx k 9
  pure #v[b0, b1, b2, b3, b4, b5, b6, b7, b8, b9]

/-- RX_CLEAR's effect on a channel (42_frame_codec.md R155): the count is 0 and no byte holds a value (log 9). -/
def clearRx (k : Channel) : Channel :=
  { k with rxLen := 0#8, rxb := Vector.replicate 10 none }

/-- RX_PUSH's effect on a channel (42_frame_codec.md R156): the byte is stored while there is room, at the count
before it is incremented, and the count saturates at `RX_LEN_MAX`. -/
def pushRx (k : Channel) (b : Byte) : Channel :=
  { k with
    rxb := if h : k.rxLen.toNat < 10 then k.rxb.set k.rxLen.toNat (some b) else k.rxb
    rxLen := if k.rxLen < Config.rxLenMax then k.rxLen + 1#8 else k.rxLen }

/-- CONFIGURE's effect on a channel: the valid bits and the count are 0, the bytes stay, unreadable (43_configure.md
R193, 70_reset_and_hazards.md R262). -/
def invalidateChan (k : Channel) : Channel :=
  { k with txValid := false, rxLen := 0#8, telValid := false }

/-- Step 1 of CONFIGURE (43_configure.md R190, R193): invalidate all that depends on the old configuration. -/
def invalidate (s : State) : State :=
  { s with
    configured := false
    csAcc := Config.checksumInit
    ktValid := false
    ktSat := false
    chans := s.chans.map invalidateChan }

/-- Reset asserted between commands (70_reset_and_hazards.md R262): every register of 10_state.md R23 takes its reset
value (R260). The parameter `VEL_SCALE`, what the host will hand over next, and the record of responses are not the
block's registers and stay (log 8). -/
def resetBlock (s : State) : State :=
  { State.reset with
    velScale := s.velScale
    inputs := s.inputs
    responses := s.responses }

end Sys2Proof.Machine
end

