-- ==== Sys2Proof/Machine/Configure.lean ====
section
/-! DEFINITION. Configuration (43_configure.md): the command CONFIGURE. -/

namespace Sys2Proof.Machine

/-- `CFG_RC`, one binary64 addition (R192). -/
def couplingTerm (hl hw : F64) : F64 := fadd hl hw

/-- `CFG_LIMIT = ((2 * PI64) * rated) / 60` (R192). -/
def ratedLimit (rated : F64) : F64 := fdiv (fmul (fmul f64Two Config.pi64) rated) f64Sixty

/-- Step 2 of R190, validation (R191): every check passes. Bits 7:4 of `midmask` are ignored (30_encoding.md R82). -/
def configValid (velScale : F64) (alg : Byte) (hl hw radius rated : F64) (midmask : Byte) : Bool :=
  decide (alg.toNat ≤ 1)
    && (isFinite hl && isFinite hw)
    && (isFinite radius && fgt radius f64Zero)
    && (isFinite rated && fgt rated f64Zero)
    && !fgt (fmul rated velScale) f64MaxWire
    && (midmask &&& 0x0F#8) == 0x0F#8
    && isFinite (couplingTerm hl hw)
    && (isFinite (ratedLimit rated) && fgt (ratedLimit rated) f64Zero)

/-- `alg[0]` (R190, 10_state.md R26): 0 selects XOR, 1 selects CRC8. -/
def algOf (alg : Byte) : Alg := if alg.getLsbD 0 then .crc8 else .xor

/-- What CONFIGURE latches into S2 to S9 (R190 step 3, R192). -/
def configRegs (alg : Byte) (hl hw radius rated : F64) (mid0 mid1 mid2 mid3 : Byte) : ConfigRegs where
  alg := algOf alg
  hl := hl
  hw := hw
  rc := couplingTerm hl hw
  radius := radius
  rated := rated
  limit := ratedLimit rated
  mid := #v[mid0, mid1, mid2, mid3]

/-- CONFIGURE (R190): invalidate (R193), validate (R191), latch (R192). A failure leaves `CONFIGURED` = 0 and the
configuration registers without a value (R194, 60_exceptions.md R215). -/
def execConfigure (alg : Byte) (hl hw radius rated : F64) (midmask mid0 mid1 mid2 mid3 : Byte) (s : State) : Result :=
  if configValid s.velScale alg hl hw radius rated midmask then
    ok [] { invalidate s with
      cfg := some (configRegs alg hl hw radius rated mid0 mid1 mid2 mid3)
      configured := true }
  else
    raise .configurationError { invalidate s with cfg := none }

end Sys2Proof.Machine
end

