-- ==== Sys2Proof/Machine/Checksum.lean ====
section
/-! DEFINITION. The checksum unit (40_checksum.md): the checksum functions and the commands CS_INIT and CS_BYTE. -/

namespace Sys2Proof.Machine

/-- `step_XOR` (R102). -/
def stepXor (acc b : Byte) : Byte := acc ^^^ b

/-- One iteration of `step_CRC8`'s loop (R103): shift left one, truncated to 8 bits, and exclusive-or the polynomial
when the bit shifted out was 1. -/
def crcShift (r : Byte) : Byte :=
  if r.getLsbD 7 then (r <<< 1) ^^^ Config.crcPoly else r <<< 1

/-- `step_CRC8` (R103): exclusive-or the byte in, then eight iterations, most significant bit first. -/
def stepCrc8 (acc b : Byte) : Byte := crcShift^[8] (acc ^^^ b)

/-- The step function of the selected algorithm (R100 to R103). -/
def checksumStep (alg : Alg) (acc b : Byte) : Byte :=
  match alg with
  | .xor => stepXor acc b
  | .crc8 => stepCrc8 acc b

/-- `checksum_A` (R101): the left fold of the step from 0x00, first byte first. -/
def checksum (alg : Alg) (bytes : List Byte) : Byte :=
  bytes.foldl (checksumStep alg) Config.checksumInit

/-- Bytes 0 to 8 of a frame, those the checksum covers (30_encoding.md R70, 20_memory.md R58). -/
def frameBody (f : Frame) : List Byte := f.toList.take 9

/-- A frame verifies when byte 9 is the checksum of bytes 0 to 8 (R106). -/
def frameVerifies (alg : Alg) (f : Frame) : Bool := checksum alg (frameBody f) == f[9]

/-- CS_INIT (R104). -/
def execCsInit (s : State) : Result :=
  ifConfigured s <|
    ok [Config.checksumInit] { s with csAcc := Config.checksumInit }

/-- CS_BYTE (R105). -/
def execCsByte (b : Byte) (s : State) : Result :=
  ifConfigured s <|
    withRead (readConfig s) fun cfg =>
      let acc := checksumStep cfg.alg s.csAcc b
      ok [acc] { s with csAcc := acc }

end Sys2Proof.Machine
end

