-- ==== Sys2Proof/Machine/FrameCodec.lean ====
section
/-! DEFINITION. The frame codec unit (42_frame_codec.md): the pure functions `encode_A` and `decode_A`, and the
commands ENCODE, ENCODE_WHEEL, RX_CLEAR, RX_PUSH and DECODE. -/

namespace Sys2Proof.Machine

/-- Bytes 0 to 8 of a request (30_encoding.md R71); bytes 5 to 8 are always 0x00 (R74). -/
def requestBody (mid mode : Byte) (vel : Half) (accel : Byte) : List Byte :=
  [mid, mode, hiByte vel, loByte vel, accel, 0x00#8, 0x00#8, 0x00#8, 0x00#8]

/-- `encode_A` (R151): the request frame, its byte 9 the checksum of bytes 0 to 8. -/
def encodeFrame (alg : Alg) (mid mode : Byte) (vel : Half) (accel : Byte) : Frame :=
  #v[mid, mode, hiByte vel, loByte vel, accel, 0x00#8, 0x00#8, 0x00#8, 0x00#8,
    checksum alg (requestBody mid mode vel accel)]

/-- The position byte in degrees (R160): multiply first, then truncate. -/
def positionDegrees (p : Byte) : BitVec 9 := BitVec.ofNat 9 (p.toNat * 360 / 255)

/-- `telemetry(f)` (R160), by the response layout 30_encoding.md R72. -/
def telemetry (f : Frame) : Telemetry where
  mid := f[0]
  mode := f[1]
  torque := ofHiLo f[2] f[3]
  vel := ofHiLo f[4] f[5]
  temp := f[6]
  pos := positionDegrees f[7]
  err := f[8]

/-- The checksum check and the telemetry of a 10-byte response (R159, R160). -/
def checkResponse (alg : Alg) (f : Frame) : Except ErrCode Telemetry :=
  if frameVerifies alg f then .ok (telemetry f) else .error .checksumMismatch

/-- `decode_A` (R161) of a byte sequence of any length: length first (R158), then the checksum (R159). -/
def decodeFrame (alg : Alg) (buf : List Byte) : Except ErrCode Telemetry :=
  if buf.length < 10 then .error .shortRead
  else if h : buf.length = 10 then checkResponse alg ⟨buf.toArray, by simp [h]⟩
  else .error .malformedLength

/-- A telemetry record as DECODE's payload (30_encoding.md R84): `POS` is a big-endian u16. -/
def telemetryBytes (t : Telemetry) : List Byte :=
  [t.mid, t.mode] ++ bytes16 t.torque ++ bytes16 t.vel ++ [t.temp] ++ bytes16 (t.pos.setWidth 16) ++ [t.err]

/-- ENCODE (R152). -/
def execEncode (ch mid mode : Byte) (vel : Half) (accel : Byte) (s : State) : Result :=
  ifConfigured s <|
    withChannel ch s fun c =>
      withRead (readConfig s) fun cfg =>
        let f := encodeFrame cfg.alg mid mode vel accel
        ok f.toList (latchTx s c f)

/-- ENCODE_WHEEL (R153): motor `CFG_MID[ch]`, setpoint `WSP[ch]`, acceleration time always 0x00 (D32). -/
def execEncodeWheel (ch mode : Byte) (s : State) : Result :=
  ifConfigured s <|
    withChannel ch s fun c =>
      if s.ktValid then
        withRead (readConfig s) fun cfg =>
          withRead (readSetpoints s) fun kt =>
            let f := encodeFrame cfg.alg cfg.mid[c] mode kt.wsp[c] 0x00#8
            ok f.toList (latchTx s c f)
      else raise .noSetpoint s

/-- RX_CLEAR (R155). -/
def execRxClear (ch : Byte) (s : State) : Result :=
  ifConfigured s <|
    withChannel ch s fun c =>
      ok [] (setChan s c (clearRx (chanOf s c)))

/-- RX_PUSH (R156). The response carries the new count. -/
def execRxPush (ch b : Byte) (s : State) : Result :=
  ifConfigured s <|
    withChannel ch s fun c =>
      let k := pushRx (chanOf s c) b
      ok [k.rxLen] (setChan s c k)

/-- DECODE (R157 to R160). A failed DECODE also clears `TEL_VALID[ch]` (60_exceptions.md R215). The receive buffer is
neither cleared nor consumed (D8). -/
def execDecode (ch : Byte) (s : State) : Result :=
  ifConfigured s <|
    withChannel ch s fun c =>
      let k := chanOf s c
      if k.rxLen.toNat < 10 then raise .shortRead (dropTel s c)
      else if 10 < k.rxLen.toNat then raise .malformedLength (dropTel s c)
      else
        withRead (readConfig s) fun cfg =>
          withRead (readRxFrame k) fun f =>
            match checkResponse cfg.alg f with
            | .error e => raise e (dropTel s c)
            | .ok t => ok (telemetryBytes t) (latchTel s c t)

end Sys2Proof.Machine
end

