-- ==== Sys2Proof/Machine/Kinematics.lean ====
section
/-! DEFINITION. The kinematics transform unit (41_kinematics.md) in binary64, the spec's default `KIN_NUM` (R130), and
the command SOLVE. -/

namespace Sys2Proof.Machine

/-- The four wheel speeds before saturation, FR, FL, BR, BL, evaluated as parenthesised in R122. -/
def wheelSpeeds (rc radius vx vy wz : F64) : Vector F64 4 :=
  let t := fmul rc wz
  #v[fdiv (fsub (fsub vx vy) t) radius,
     fdiv (fadd (fadd vx vy) t) radius,
     fdiv (fsub (fadd vx vy) t) radius,
     fdiv (fadd (fsub vx vy) t) radius]

/-- All four are finite (R124). -/
def allFinite (w : Vector F64 4) : Bool := isFinite w[0] && isFinite w[1] && isFinite w[2] && isFinite w[3]

/-- `m`, the largest magnitude of the four (R123). -/
def maxAbs (w : Vector F64 4) : F64 := fmax4 (fabs w[0]) (fabs w[1]) (fabs w[2]) (fabs w[3])

/-- The saturation of R123: all four scaled by the one factor `limit / m` when `m > limit`, else passed through; with
it the flag `sat`. -/
def saturate (limit : F64) (w : Vector F64 4) : Vector F64 4 × Bool :=
  let m := maxAbs w
  if fgt m limit then
    let s := fdiv limit m
    (w.map fun x => fmul x s, true)
  else (w, false)

/-- `clamp(n, -32768, 32767)` as an i16 pattern (R125). -/
def clampHalf (n : Int) : Half := BitVec.ofInt 16 (max (-32768) (min n 32767))

/-- `to_wire` (R125), with the OPEN parameter `VEL_SCALE`. -/
def toWire (velScale w : F64) : Half :=
  let rpm := fdiv (fmul w f64Sixty) (fmul f64Two Config.pi64)
  let c := fmul rpm velScale
  clampHalf (roundHalfAway c)

/-- SOLVE's payload (30_encoding.md R84). -/
def solveBytes (sat : Bool) (wsp : Vector Half 4) : List Byte :=
  flagByte sat :: (bytes16 wsp[0] ++ bytes16 wsp[1] ++ bytes16 wsp[2] ++ bytes16 wsp[3])

/-- SOLVE (R126). On NON_FINITE no KTU register changes (R124, 60_exceptions.md R214). The scaled values are the ones
stored and converted (R129). -/
def execSolve (vx vy wz : F64) (s : State) : Result :=
  ifConfigured s <|
    if isFinite vx && isFinite vy && isFinite wz then
      withRead (readConfig s) fun cfg =>
        let w := wheelSpeeds cfg.rc cfg.radius vx vy wz
        if allFinite w then
          let (wrad, sat) := saturate cfg.limit w
          let wsp := wrad.map (toWire s.velScale)
          ok (solveBytes sat wsp)
            { s with kt := some { wrad := wrad, wsp := wsp }, ktSat := sat, ktValid := true }
        else raise .nonFinite s
    else raise .nonFinite s

end Sys2Proof.Machine
end

