-- ==== Sys2Proof/Machine/Dispatch.lean ====
section
/-! DEFINITION. The dispatch of a command to its meaning: one arm per constructor (30_encoding.md R81). -/

namespace Sys2Proof.Machine

open Host (Outcome)

def exec (i : Instr) (s : State) : Host.Outcome State Fault Refusal :=
  match i with
  | .configure alg hl hw radius rated midmask mid0 mid1 mid2 mid3 => Sys2Proof.Machine.execConfigure alg hl hw radius rated midmask mid0 mid1 mid2 mid3 s
  | .csInit => Sys2Proof.Machine.execCsInit s
  | .csByte b => Sys2Proof.Machine.execCsByte b s
  | .encode ch mid mode vel accel => Sys2Proof.Machine.execEncode ch mid mode vel accel s
  | .encodeWheel ch mode => Sys2Proof.Machine.execEncodeWheel ch mode s
  | .rxClear ch => Sys2Proof.Machine.execRxClear ch s
  | .rxPush ch b => Sys2Proof.Machine.execRxPush ch b s
  | .decode ch => Sys2Proof.Machine.execDecode ch s
  | .solve vx vy wz => Sys2Proof.Machine.execSolve vx vy wz s

end Sys2Proof.Machine
end

