-- ==== Sys2Proof/Machine/CommandPort.lean ====
section
/-! DEFINITION. The command port (20_memory.md R53): what the block does with the host's next input. -/

namespace Sys2Proof.Machine

/-- One command string: the meaning of the command it stands for, and ILLEGAL_OP, which changes no state but `LAST_ERR`,
when it stands for none (30_encoding.md R83, 60_exceptions.md R213). -/
def runCommand (c : List Byte) (s : State) : Result :=
  match decode c with
  | .ok i => exec i s
  | .error _ => raise .illegalOp s

/-- Take the host's next input (R53, 70_reset_and_hazards.md R262). With none pending the block idles: it has no
pending operations (10_state.md R35), and a run has ended (60_exceptions.md R240; DESIGN CHOICE, log 6). -/
def takeInput (s : State) : Result :=
  match s.inputs with
  | [] => .next s
  | .reset :: rest => .next (resetBlock { s with inputs := rest })
  | .command c :: rest => runCommand c { s with inputs := rest }

/-- The host submits a command string as the next input. -/
def submitNext (s : State) (c : List Byte) : State :=
  { s with inputs := .command c :: s.inputs }

end Sys2Proof.Machine
end

