-- ==== Sys2Proof/Machine/Step.lean ====
section
/-! DEFINITION. One step of the block (20_memory.md R53): one command, or one reset, of the host. -/

namespace Sys2Proof.Machine

/-- One step: the block takes the host's next input and completes it (10_state.md R35: "A command completes within its
own step"). -/
def step (s : State) : Host.Outcome State Fault Refusal := takeInput s

/-- `s` with the command string of the opcode-table word `w` as the host's next input, so that the next step runs it.
The block fetches nothing (10_state.md R21): this stands for the host issuing a command (log 6). -/
def State.withFetchWord (s : State) (nbits w : Nat) : State := submitNext s (tableCommand nbits w)

end Sys2Proof.Machine
end

