-- ==== Sys2Proof/Machine/Assembler.lean ====
section
/-! DEFINITION. The spec's assembler syntax and pseudo-commands (30_encoding.md R86, R87), as terms: which lines are
well formed, and the commands each expands to. "Each expands to the commands shown and has no meaning of its own"
(R87). -/

namespace Sys2Proof.Machine

/-- A binary64 operand as R86 writes it: a decimal literal, `±digits * 10^exp10`; and the infinities and the NaN that
the programs of 95_test_vectors.md write. -/
inductive Literal where
  | decimal (neg : Bool) (digits : Nat) (exp10 : Int)
  | infinity (neg : Bool)
  | nan
  deriving DecidableEq, Repr

/-- A decimal literal means "the nearest binary64 value" (R86). R86 does not say which of two that are equally near, nor
what a literal past the greatest finite value means: the even one, and an infinity where rounding goes past that value,
as for the KTU's arithmetic (00_scope.md R11), are a DESIGN CHOICE (log 13). -/
def literalValue (l : Literal) : F64 :=
  match l with
  | .decimal neg digits exp10 =>
    ofSignMag neg (roundMag (digits * 10 ^ exp10.toNat * 2 ^ 1074) (10 ^ (-exp10).toNat))
  | .infinity neg => ofSignMag neg infMag
  | .nan => quietNaN

/-- One line of an assembler program (R86), pseudo-commands included (R87). Integer operands are as written. -/
inductive AsmLine where
  /-- The operands by name; `none` in `mid` is the `-` of an absent id. -/
  | configure (alg : Alg) (hl hw radius rated : Literal) (mid : Vector (Option Int) 4)
  | csInit
  | csByte (b : Int)
  /-- `accel` is `none` in the pseudo-command of four operands. -/
  | encode (ch mid mode vel : Int) (accel : Option Int)
  | encodeWheel (ch mode : Int)
  | rxClear (ch : Int)
  | rxPush (ch b : Int)
  | decode (ch : Int)
  | solve (vx vy wz : Literal)
  | rxFrame (ch : Int) (bytes : List Int)
  | csBlock (bytes : List Int)
  deriving DecidableEq, Repr

/-- An integer that a u8 operand can hold. -/
def isU8 (n : Int) : Bool := decide (0 ≤ n ∧ n ≤ 255)

/-- An operand that may be absent: a u8 where it is there. -/
def isOptU8 (m : Option Int) : Bool :=
  match m with
  | none => true
  | some n => isU8 n

/-- An integer that an i16 operand can hold (DESIGN CHOICE, log 13). -/
def isI16 (n : Int) : Bool := decide (-32768 ≤ n ∧ n ≤ 32767)

/-- Every integer operand fits its field (R82, R86). -/
def asmWellFormed (l : AsmLine) : Bool :=
  match l with
  | .configure _ _ _ _ _ mid => isOptU8 mid[0] && isOptU8 mid[1] && isOptU8 mid[2] && isOptU8 mid[3]
  | .csInit => true
  | .csByte b => isU8 b
  | .encode ch mid mode vel accel =>
    isU8 ch && isU8 mid && isU8 mode && isI16 vel && isOptU8 accel
  | .encodeWheel ch mode => isU8 ch && isU8 mode
  | .rxClear ch => isU8 ch
  | .rxPush ch b => isU8 ch && isU8 b
  | .decode ch => isU8 ch
  | .solve _ _ _ => true
  | .rxFrame ch bytes => isU8 ch && bytes.all isU8
  | .csBlock bytes => bytes.all isU8

/-- A u8 operand's byte. -/
def asmByte (n : Int) : Byte := BitVec.ofInt 8 n

/-- The mask byte of a `mid` list: bit i is 1 when the id of wheel i is present (R82, R86). -/
def midMask (mid : Vector (Option Int) 4) : Byte :=
  (if mid[0].isSome then 0x01#8 else 0x00#8) ||| (if mid[1].isSome then 0x02#8 else 0x00#8)
    ||| (if mid[2].isSome then 0x04#8 else 0x00#8) ||| (if mid[3].isSome then 0x08#8 else 0x00#8)

/-- The byte of a wheel's id; an absent one is ignored by the block (R82) and written as 0x00 (DESIGN CHOICE, log 13). -/
def midByte (m : Option Int) : Byte :=
  match m with
  | some n => asmByte n
  | none => 0x00#8

/-- The commands a line stands for (R86, R87). R87 gives the form without byte operands for CS_BLOCK and says nothing of
RX_FRAME's: that RX_FRAME without bytes is RX_CLEAR alone is a DESIGN CHOICE (log 13). -/
def expand (l : AsmLine) : List Instr :=
  match l with
  | .configure alg hl hw radius rated mid =>
    [.configure (match alg with | .xor => 0x00#8 | .crc8 => 0x01#8) (literalValue hl) (literalValue hw)
      (literalValue radius) (literalValue rated) (midMask mid) (midByte mid[0]) (midByte mid[1]) (midByte mid[2])
      (midByte mid[3])]
  | .csInit => [.csInit]
  | .csByte b => [.csByte (asmByte b)]
  | .encode ch mid mode vel accel =>
    [.encode (asmByte ch) (asmByte mid) (asmByte mode) (BitVec.ofInt 16 vel) (asmByte (accel.getD 0))]
  | .encodeWheel ch mode => [.encodeWheel (asmByte ch) (asmByte mode)]
  | .rxClear ch => [.rxClear (asmByte ch)]
  | .rxPush ch b => [.rxPush (asmByte ch) (asmByte b)]
  | .decode ch => [.decode (asmByte ch)]
  | .solve vx vy wz => [.solve (literalValue vx) (literalValue vy) (literalValue wz)]
  | .rxFrame ch bytes => .rxClear (asmByte ch) :: bytes.map fun b => .rxPush (asmByte ch) (asmByte b)
  | .csBlock bytes => .csInit :: bytes.map fun b => .csByte (asmByte b)

/-- The commands of a well-formed line; an ill-formed one is refused. -/
def assemble (l : AsmLine) : Option (List Instr) :=
  if asmWellFormed l then some (expand l) else none

end Sys2Proof.Machine
end

