-- ==== Sys2Proof/Machine/Ports.lean ====
section
/-! DEFINITION. The output ports the host may read between commands (20_memory.md R55; D1: every register is readable,
log 16).
A read has no side effect, so each port is a function of the state. A register that holds no readable value is a model
fault (10_state.md R34). -/

namespace Sys2Proof.Machine

/-- `TXF[ch]`, readable while `TX_VALID[ch]` = 1 (R34). -/
def portTxf (s : State) (c : Fin Config.nch) : Except Fault Frame :=
  match (chanOf s c).txValid, (chanOf s c).txf with
  | true, some f => .ok f
  | _, _ => .error .noTxFrame

/-- `TX_VALID[ch]`. -/
def portTxValid (s : State) (c : Fin Config.nch) : Bool := (chanOf s c).txValid

/-- `TEL[ch]`, readable while `TEL_VALID[ch]` = 1 (R34). -/
def portTel (s : State) (c : Fin Config.nch) : Except Fault Telemetry :=
  match (chanOf s c).telValid, (chanOf s c).tel with
  | true, some t => .ok t
  | _, _ => .error .noTelemetry

/-- `TEL_VALID[ch]`. -/
def portTelValid (s : State) (c : Fin Config.nch) : Bool := (chanOf s c).telValid

/-- `RXB[ch][i]` (D1), readable below the count (R32). -/
def portRxb (s : State) (c : Fin Config.nch) (i : Fin 10) : Except Fault Byte := readRx (chanOf s c) i

/-- `RX_LEN[ch]` (D1). -/
def portRxLen (s : State) (c : Fin Config.nch) : Byte := (chanOf s c).rxLen

/-- `WRAD[i]`, readable while `KT_VALID` = 1 (R34). -/
def portWrad (s : State) (i : Fin 4) : Except Fault F64 := (readSetpoints s).map fun k => k.wrad[i]

/-- `WSP[i]`, readable while `KT_VALID` = 1 (R34). -/
def portWsp (s : State) (i : Fin 4) : Except Fault Half := (readSetpoints s).map fun k => k.wsp[i]

/-- `KT_VALID`. -/
def portKtValid (s : State) : Bool := s.ktValid

/-- `KT_SAT`. -/
def portKtSat (s : State) : Bool := s.ktSat

/-- `CS_ACC`. -/
def portCsAcc (s : State) : Byte := s.csAcc

/-- `STATUS.LAST_ERR`. -/
def portLastErr (s : State) : BitVec 4 := s.lastErr

/-- `CONFIGURED` (D1). -/
def portConfigured (s : State) : Bool := s.configured

/-- The configuration registers S2 to S9 (D1). -/
def portConfig (s : State) : Except Fault ConfigRegs := readConfig s

end Sys2Proof.Machine
end

