-- ==== Sys2Proof/Machine/Exchange.lean ====
section
/-! DEFINITION. The host contract (60_exceptions.md R230 to R239, 70_reset_and_hazards.md R270 to R277): the exchange
state machine the host runs on each channel, and the duties that tie it to the commands it may issue.

This is the environment, "not part of the block" (00_scope.md R5): no register of State holds it, and `step` does not
consult it (log 14). "The block does not detect" a broken duty (70_reset_and_hazards.md section 2). -/

namespace Sys2Proof.Machine

/-- Why an exchange failed: the five causes of R230, kept apart (R235: a timeout is "distinguishable from
ChecksumMismatch"). -/
inductive ExchangeError where
  | checksumMismatch
  | shortRead
  | malformedLength
  | transportError
  | timeoutError
  deriving DecidableEq, Repr

/-- The states of one exchange (R230). -/
inductive ExchangeState where
  | idle
  | sending
  | awaitingResponse
  | validated
  | failed (why : ExchangeError)
  deriving DecidableEq, Repr

/-- What moves an exchange. -/
inductive ExchangeEvent where
  /-- The host hands `TXF[ch]` to the transport, having issued ENCODE or ENCODE_WHEEL and then RX_CLEAR for it. -/
  | start
  /-- The write is submitted to the transport. -/
  | writeSubmitted
  /-- The transport confirms that the write completed. -/
  | writeConfirmed
  /-- The block answers a DECODE with this error code (0: success). -/
  | decodeAnswered (code : BitVec 4)
  /-- A write or a read failed (R236). -/
  | transportFailed
  /-- `T_RESP` passed without 10 bytes (R235). -/
  | responseTimedOut
  /-- The host abandons the exchange (R232, R239). -/
  | abandoned
  /-- The exchange's result has been reported to the caller (R233). -/
  | reported
  deriving DecidableEq, Repr

/-- The exchange state machine (R230 to R236), for an exchange that expects a reply or not (`EXPECT_REPLY`, R231); none
where the contract gives the event no move. -/
def exchangeNext (expectReply : Bool) (x : ExchangeState) (e : ExchangeEvent) : Option ExchangeState :=
  match x, e with
  | .idle, .start => some .sending
  | .sending, .writeSubmitted => if expectReply then some .sending else some .idle
  | .sending, .writeConfirmed => if expectReply then some .awaitingResponse else none
  | .sending, .transportFailed => some (.failed .transportError)
  | .sending, .abandoned => some .idle
  | .awaitingResponse, .decodeAnswered code =>
    if code = errCode .checksumMismatch then some (.failed .checksumMismatch)
    else if code = errCode .shortRead then some (.failed .shortRead)
    else if code = errCode .malformedLength then some (.failed .malformedLength)
    else if code = 0#4 then some .validated
    else none
  | .awaitingResponse, .transportFailed => some (.failed .transportError)
  | .awaitingResponse, .responseTimedOut => some (.failed .timeoutError)
  | .awaitingResponse, .abandoned => some .idle
  | .validated, .reported => some .idle
  | .failed _, .reported => some .idle
  | _, _ => none

/-- An exchange is in flight: its channel must not be encoded on again, and the block not reconfigured (R232, R273). -/
def inFlight (x : ExchangeState) : Bool :=
  match x with
  | .sending => true
  | .awaitingResponse => true
  | _ => false

/-- How far the host has prepared a channel's next exchange (R230: "issues ENCODE or ENCODE_WHEEL on the channel, then
RX_CLEAR, and hands `TXF[ch]` to the transport"). -/
inductive Preparation where
  /-- No frame of a coming exchange is encoded. -/
  | nothing
  /-- ENCODE or ENCODE_WHEEL has succeeded. -/
  | encoded
  /-- And after it RX_CLEAR. -/
  | cleared
  deriving DecidableEq, Repr

/-- What the host keeps of one channel for its duties. -/
structure HostChannel where
  /-- The channel's exchange (R230). -/
  exchange : ExchangeState
  /-- Whether that exchange expects a reply, `EXPECT_REPLY` (R231); the host chooses when it starts it. -/
  expectReply : Bool
  /-- The next exchange's preparation. -/
  prepared : Preparation
  /-- The response bytes the transport has delivered and the host has not pushed, oldest first (R239: "push bytes in
  arrival order"; 70_reset_and_hazards.md R277). -/
  arrived : List Byte
  deriving DecidableEq, Repr

/-- A channel with no exchange, none prepared, and no byte to push. -/
def HostChannel.initial : HostChannel where
  exchange := .idle
  expectReply := false
  prepared := .nothing
  arrived := []

/-- What the host keeps for its duties, channel by channel. -/
abbrev HostView := Vector HostChannel Config.nch

/-- A host that has done nothing yet; and the host after the block is reset between commands: 70_reset_and_hazards.md
R262 says of its open exchanges that each "is lost" and names no state, and that a lost exchange is `Idle`, unreported,
with nothing prepared and no byte left to push, is a DESIGN CHOICE (log 18). -/
def HostView.initial : HostView := Vector.replicate Config.nch HostChannel.initial

/-- The response bytes of channel `c` that the transport has delivered so far: those pushed and those not yet pushed. -/
def deliveredCount (h : HostView) (s : State) (c : Fin Config.nch) : Nat :=
  (portRxLen s c).toNat + h[c].arrived.length

/-- A duty about channel `ch`; none restrains a command on a channel that does not exist. -/
def onHostChannel (ch : Byte) (p : Fin Config.nch → Bool) : Bool :=
  if hc : ch.toNat < Config.nch then p ⟨ch.toNat, hc⟩ else true

/-- A frame is encoded only where no exchange is in flight (R232), and only when the frame before it has gone to the
transport: "The host must take a frame's bytes to the transport before it encodes the next frame on the same channel"
(70_reset_and_hazards.md R270). R230 lists the encoding under `Idle → Sending`, and R232 bars only a pending response: that
the host may encode while the channel's last exchange still stands at `Validated` or `Failed` is a DESIGN CHOICE (log 20). -/
def mayEncode (h : HostView) (c : Fin Config.nch) : Bool :=
  !inFlight h[c].exchange && h[c].prepared == .nothing

/-- RX_CLEAR comes before the first byte of a response is pushed (R239, 70_reset_and_hazards.md R274), so not after one
has been while the response is awaited. Outside flight it is free, at `Validated` and `Failed` too (DESIGN CHOICE, log 20). -/
def mayClear (h : HostView) (s : State) (c : Fin Config.nch) : Bool :=
  !inFlight h[c].exchange || portRxLen s c == 0#8

/-- A byte is pushed only while the response is awaited (R230, R237), and it is the oldest that has arrived and not been
pushed (R239, R277). -/
def mayPush (h : HostView) (c : Fin Config.nch) (b : Byte) : Bool :=
  h[c].exchange == .awaitingResponse && h[c].arrived.head? == some b

/-- DECODE comes while the response is awaited, after one RX_PUSH per received byte (R239), and not before the transport
has delivered: until then the host waits (70_reset_and_hazards.md R276). That one byte makes a delivery is DEDUCED (log
14): a response may be short (R230's SHORT_READ). -/
def mayDecode (h : HostView) (s : State) (c : Fin Config.nch) : Bool :=
  h[c].exchange == .awaitingResponse && h[c].arrived.isEmpty && portRxLen s c != 0#8

/-- The host's duties on the rows of R239's table below its first. No CONFIGURE stands inside an exchange (R273).
No duty restrains the other commands that name no channel. -/
def exchangeLets (h : HostView) (s : State) (i : Instr) : Bool :=
  match i with
  | .configure .. => h.toList.all fun k => !inFlight k.exchange
  | .csInit => true
  | .csByte _ => true
  | .encode ch _ _ _ _ => onHostChannel ch fun c => mayEncode h c
  | .encodeWheel ch _ => onHostChannel ch fun c => mayEncode h c
  | .rxClear ch => onHostChannel ch fun c => mayClear h s c
  | .rxPush ch b => onHostChannel ch fun c => mayPush h c b
  | .decode ch => onHostChannel ch fun c => mayDecode h s c
  | .solve .. => true

/-- The setup row of R239's table: before any other command the host issues a CONFIGURE that succeeds
(70_reset_and_hazards.md R261), so it issues another command only while `CONFIGURED` = 1. -/
def setupLets (s : State) (i : Instr) : Bool :=
  match i with
  | .configure .. => true
  | _ => portConfigured s

/-- The commands the host's duties let it issue (R239): all of its table's rows. -/
def hostMayIssue (h : HostView) (s : State) (i : Instr) : Bool := setupLets s i && exchangeLets h s i

/-- Change what the host keeps of channel `ch`, where it exists. -/
def updateHost (h : HostView) (ch : Byte) (f : HostChannel → HostChannel) : HostView :=
  if hc : ch.toNat < Config.nch then h.set ch.toNat (f h[ch.toNat]) else h

/-- A channel whose exchange has come to `x`. Once it is no longer in flight it leaves no byte to push (R237, R239's
teardown row; DEDUCED, log 14). -/
def HostChannel.moved (k : HostChannel) (x : ExchangeState) : HostChannel :=
  { k with exchange := x, arrived := if inFlight x then k.arrived else [] }

/-- The block's answer to a DECODE moves the channel's exchange as R230 says, if it is one of the answers R230 names. -/
def HostChannel.answered (k : HostChannel) (code : BitVec 4) : HostChannel :=
  match exchangeNext k.expectReply k.exchange (.decodeAnswered code) with
  | some x => k.moved x
  | none => k

/-- The host's view after it has issued a command and the block has answered it with `code` (0: success). A frame is
prepared by ENCODE or ENCODE_WHEEL and then RX_CLEAR (R230), and by no failed one; CONFIGURE, successful or not, leaves no
frame to transmit (43_configure.md R193). -/
def hostIssued (h : HostView) (i : Instr) (code : BitVec 4) : HostView :=
  match i with
  | .configure .. => h.map fun k => { k with prepared := .nothing }
  | .csInit => h
  | .csByte _ => h
  | .encode ch _ _ _ _ => updateHost h ch fun k => if code = 0#4 then { k with prepared := .encoded } else k
  | .encodeWheel ch _ => updateHost h ch fun k => if code = 0#4 then { k with prepared := .encoded } else k
  | .rxClear ch => updateHost h ch fun k =>
    if code = 0#4 ∧ k.prepared = .encoded then { k with prepared := .cleared } else k
  | .rxPush ch _ => updateHost h ch fun k => if code = 0#4 then { k with arrived := k.arrived.tail } else k
  | .decode ch => updateHost h ch fun k => k.answered code
  | .solve .. => h

/-- The transport delivers a response byte: it joins those that have arrived, last. A byte that comes while no exchange
of its channel is in flight belongs to none and is never pushed (R237; DEDUCED, log 14). One that comes while an exchange is
in flight is taken as that exchange's, even if an earlier, abandoned or timed-out exchange asked for it: nothing in a byte
says which, the spec does not either, and this is a DESIGN CHOICE (log 19). -/
def hostReceives (h : HostView) (c : Fin Config.nch) (b : Byte) : HostView :=
  if inFlight h[c].exchange then h.set c { h[c] with arrived := h[c].arrived ++ [b] } else h

/-- The host may hand `TXF[ch]` to the transport only when it has issued ENCODE or ENCODE_WHEEL and then RX_CLEAR for it
(R230), while `TX_VALID[ch]` = 1 (R271) and with the receive buffer empty (R274). That RX_CLEAR comes before the frame goes
out is R230's order; program P1 of 95_test_vectors.md transmits between ENCODE and RX_CLEAR, and to allow only R230's
order is a DESIGN CHOICE (log 21). -/
def hostMayTransmit (h : HostView) (s : State) (c : Fin Config.nch) : Bool :=
  h[c].prepared == .cleared && portTxValid s c && portRxLen s c == 0#8

/-- The host starts an exchange on channel `c` and chooses whether it expects a reply. Its preparation is used up. -/
def hostStart (expectReply : Bool) (h : HostView) (s : State) (c : Fin Config.nch) : Option HostView :=
  if hostMayTransmit h s c then
    (exchangeNext expectReply h[c].exchange .start).map fun x =>
      h.set c { (h[c].moved x) with expectReply := expectReply, prepared := .nothing }
  else none

/-- An event of channel `c`'s exchange that is neither its start (`hostStart`) nor the block's answer to a DECODE, which
only issuing one brings (`hostIssued`). The response times out only "without 10 bytes" (R235). -/
def hostEvent (h : HostView) (s : State) (c : Fin Config.nch) (e : ExchangeEvent) : Option HostView :=
  let move := (exchangeNext h[c].expectReply h[c].exchange e).map fun x => h.set c (h[c].moved x)
  match e with
  | .start => none
  | .writeSubmitted => move
  | .writeConfirmed => move
  | .decodeAnswered _ => none
  | .transportFailed => move
  | .responseTimedOut => if deliveredCount h s c < 10 then move else none
  | .abandoned => move
  | .reported => move

end Sys2Proof.Machine
end

