-- ==== Sys2Proof/Machine/KinematicsExact.lean ====
section
/-! DEFINITION. The KTU's arithmetic with `KIN_NUM = real` (41_kinematics.md R130): R122, R123 and R125 over an ordered
field, `PI64` replaced by the number `pi`. It is the reference in which the exact laws of R128 hold; the block computes
in binary64 (Machine/Kinematics.lean) and no command calls this file (log 3). -/

namespace Sys2Proof.Machine

variable {K : Type} [Field K] [LinearOrder K]

/-- R122 in exact arithmetic: FR, FL, BR, BL. -/
def exactWheelSpeeds (rc radius vx vy wz : K) : Vector K 4 :=
  #v[(vx - vy - rc * wz) / radius, (vx + vy + rc * wz) / radius,
     (vx + vy - rc * wz) / radius, (vx - vy + rc * wz) / radius]

/-- The largest magnitude of the four (R123). -/
def exactMaxAbs (w : Vector K 4) : K := max (max (max |w[0]| |w[1]|) |w[2]|) |w[3]|

/-- R123 in exact arithmetic. -/
def exactSaturate (limit : K) (w : Vector K 4) : Vector K 4 × Bool :=
  if limit < exactMaxAbs w then (w.map fun x => x * (limit / exactMaxAbs w), true) else (w, false)

/-- `CFG_LIMIT` in exact arithmetic (43_configure.md R192). -/
def exactLimit (pi rated : K) : K := 2 * pi * rated / 60

/-- `roundHalfAway` of an exact number (00_scope.md R11). -/
def exactRoundHalfAway [FloorRing K] (x : K) : Int :=
  if 0 ≤ x then ⌊x + 1 / 2⌋ else -⌊-x + 1 / 2⌋

/-- `to_wire` in exact arithmetic (R125). -/
def exactToWire [FloorRing K] (pi velScale w : K) : Int :=
  max (-32768) (min (exactRoundHalfAway (w * 60 / (2 * pi) * velScale)) 32767)

end Sys2Proof.Machine
end

