-- ==== Sys2Proof/Safety.lean ====
section
/-! DEFINITION. What a good state is, in the terms the claims use: the invariants of 10_state.md R34 with the ones the
rules around it give (R25, R29, R32, 60_exceptions.md R211). -/

namespace Sys2Proof.Machine

/-- The legal values of the configuration registers after a successful CONFIGURE (10_state.md R25, 43_configure.md
R191). -/
structure ConfigLegal (velScale : F64) (c : ConfigRegs) : Prop where
  hl_finite : isFinite c.hl = true
  hw_finite : isFinite c.hw = true
  radius_finite : isFinite c.radius = true
  radius_pos : fgt c.radius f64Zero = true
  rated_finite : isFinite c.rated = true
  rated_pos : fgt c.rated f64Zero = true
  rated_fits : fgt (fmul c.rated velScale) f64MaxWire = false
  rc_sum : c.rc = fadd c.hl c.hw
  rc_finite : isFinite c.rc = true
  limit_formula : c.limit = fdiv (fmul (fmul f64Two Config.pi64) c.rated) f64Sixty
  limit_finite : isFinite c.limit = true
  limit_pos : fgt c.limit f64Zero = true

/-- The invariant of the block's registers. -/
structure Inv (s : State) : Prop where
  /-- The configuration registers hold values exactly while `CONFIGURED` = 1 (R24, 43_configure.md R194). -/
  config_value : s.configured = s.cfg.isSome
  /-- R25. -/
  config_legal : ∀ c, s.cfg = some c → ConfigLegal s.velScale c
  /-- R34's third invariant. -/
  kt_configured : s.ktValid = true → s.configured = true
  /-- R28, R29: while `KT_VALID` = 1, `WSP` holds `WRAD` converted to the wire unit. -/
  kt_value : s.ktValid = true → ∃ k, s.kt = some k ∧ k.wsp = k.wrad.map (toWire s.velScale)
  /-- R29: `KT_SAT` speaks of the SOLVE that `KT_VALID` vouches for. -/
  kt_sat : s.ktSat = true → s.ktValid = true
  /-- R34's first invariant. -/
  tx_verifies : ∀ c, (chanOf s c).txValid = true →
    ∃ g f, s.cfg = some g ∧ (chanOf s c).txf = some f ∧ frameVerifies g.alg f = true
  /-- R32: the received bytes below the count hold values. -/
  rx_value : ∀ c, ∀ i : Fin 10, i.val < min (chanOf s c).rxLen.toNat 10 → ((chanOf s c).rxb[i]).isSome = true
  /-- R34's second invariant, as far as the registers show it: `TEL` keeps no byte 9. That the frame was the one received
  and its checksum was compared is said of the step that latches it (Obligations.ReadableFramesAndTelemetryAreVerified). -/
  tel_decoded : ∀ c, (chanOf s c).telValid = true →
    ∃ g f, s.cfg = some g ∧ frameVerifies g.alg f = true ∧ (chanOf s c).tel = some (telemetry f)
  /-- R211: codes 10 to 15 are never produced. -/
  err_code : s.lastErr.toNat ≤ 9

/-- No NaN or infinity is in `WRAD` while it is readable (41_kinematics.md R124, 93_implementation_defined.md item
17). -/
def WheelSpeedsFinite (s : State) : Prop :=
  s.ktValid = true → ∀ k, s.kt = some k → allFinite k.wrad = true

/-- The channel operand of a command that has one. -/
def channelOperand (i : Instr) : Option Byte :=
  match i with
  | .configure .. => none
  | .csInit => none
  | .csByte _ => none
  | .encode ch _ _ _ _ => some ch
  | .encodeWheel ch _ => some ch
  | .rxClear ch => some ch
  | .rxPush ch _ => some ch
  | .decode ch => some ch
  | .solve .. => none

/-- CONFIGURE, the one command that may run unconfigured and that reaches every channel (60_exceptions.md R212,
43_configure.md R193). -/
def isConfigure (i : Instr) : Bool :=
  match i with
  | .configure .. => true
  | _ => false

/-- The commands of a host as inputs of the command port, each its own byte string. -/
def asInputs (is : List Instr) : List Input := is.map fun i => .command (encode i)

end Sys2Proof.Machine
end

