-- ==== Sys2Proof/Certificates/Slice0/Obligations.lean ====
section
/-! DEFINITION. The statements for the provers. Each docstring names the rules of spec/ it rests on.

A statement about `exec` that ends in an equation `exec i s = .next t` gives the WHOLE next state `t`: every register,
every channel and every byte that `t` does not mention is as in `s`. "VEL_SCALE" is `s.velScale`, free in every one. -/

open Sys2Proof Sys2Proof.Machine

/-! ### Encodings (30_encoding.md) -/

/-- Decoding the byte string of a command gives the command back, with every operand at every value (R80, R81, R82). -/
def Obligations.DecodeOfEncodeIsTheCommand : Prop :=
  ∀ i : Instr, decode (encode i) = .ok i

/-- A byte string that decodes to a command is that command's encoding: each command has one byte string, and no byte
of it is dropped (R80, R81, R85). -/
def Obligations.EncodeOfDecodeIsTheString : Prop :=
  ∀ (c : List Byte) (i : Instr), decode c = .ok i → encode i = c

/-- The strings that decode are those whose op code the command map lists with exactly their length (R81, R83). -/
def Obligations.WellFormedStringsAreThoseThatDecode : Prop :=
  ∀ c : List Byte, wellFormedCommand c = true ↔ ∃ i, decode c = .ok i

/-- Words written out from the command map (R81) and the programs of 95_test_vectors.md, one of each command and so of
each format, decode to the commands they stand for; CONFIGURE's operands differ from one another, so that each field's
place among its 39 bytes is fixed. -/
def Obligations.SpecWordsDecodeToTheirCommands : Prop :=
  decode [0x01#8, 0x00#8,
      0x3F#8, 0xB9#8, 0x99#8, 0x99#8, 0x99#8, 0x99#8, 0x99#8, 0x9A#8,
      0x3F#8, 0xC9#8, 0x99#8, 0x99#8, 0x99#8, 0x99#8, 0x99#8, 0x9B#8,
      0x3F#8, 0xA9#8, 0x99#8, 0x99#8, 0x99#8, 0x99#8, 0x99#8, 0x9C#8,
      0x40#8, 0x59#8, 0x00#8, 0x00#8, 0x00#8, 0x00#8, 0x00#8, 0x01#8,
      0x0F#8, 0x01#8, 0x02#8, 0x03#8, 0x04#8] =
    .ok (.configure 0x00#8 0x3FB999999999999A#64 0x3FC999999999999B#64 0x3FA999999999999C#64 0x4059000000000001#64
      0x0F#8 0x01#8 0x02#8 0x03#8 0x04#8) ∧
  decode [0x10#8] = .ok .csInit ∧
  decode [0x11#8, 0x64#8] = .ok (.csByte 0x64#8) ∧
  decode [0x20#8, 0x03#8, 0xFF#8, 0xFE#8, 0xFF#8, 0x9C#8, 0x05#8] =
    .ok (.encode 0x03#8 0xFF#8 0xFE#8 0xFF9C#16 0x05#8) ∧
  decode [0x21#8, 0x03#8, 0x64#8] = .ok (.encodeWheel 0x03#8 0x64#8) ∧
  decode [0x30#8, 0x02#8] = .ok (.rxClear 0x02#8) ∧
  decode [0x31#8, 0x00#8, 0x4F#8] = .ok (.rxPush 0x00#8 0x4F#8) ∧
  decode [0x32#8, 0x01#8] = .ok (.decode 0x01#8) ∧
  decode [0x40#8, 0x3F#8, 0xB9#8, 0x99#8, 0x99#8, 0x99#8, 0x99#8, 0x99#8, 0x9A#8,
      0x3F#8, 0xA9#8, 0x99#8, 0x99#8, 0x99#8, 0x99#8, 0x99#8, 0x9A#8,
      0x3F#8, 0xE0#8, 0x00#8, 0x00#8, 0x00#8, 0x00#8, 0x00#8, 0x00#8] =
    .ok (.solve 0x3FB999999999999A#64 0x3FA999999999999A#64 0x3FE0000000000000#64)

/-- When the host's next input is a byte string that decodes to a command, one step is that command's execution at the
state with the input taken (20_memory.md R53, 30_encoding.md R80). The list of inputs is the model's (log 6). -/
def Obligations.StepRunsTheDecodedCommand : Prop :=
  ∀ (s : State) (c : List Byte) (rest : List Input) (i : Instr),
    s.inputs = .command c :: rest → decode c = .ok i →
      step s = exec i { s with inputs := rest }

/-- R213: a string that is empty, has an unlisted op code, or has not its op code's length raises ILLEGAL_OP and
changes no state but `LAST_ERR`, whether or not the block is configured. -/
def Obligations.IllegalStringsRaiseIllegalOp : Prop :=
  ∀ (s : State) (c : List Byte) (rest : List Input),
    s.inputs = .command c :: rest →
    (∀ op operands, c = op :: operands →
      (op.toNat, operands.length + 1) ∉
        [(0x01, 39), (0x10, 1), (0x11, 2), (0x20, 7), (0x21, 3), (0x30, 2), (0x31, 3), (0x32, 2), (0x40, 25)]) →
      step s = .next { s with
        inputs := rest
        lastErr := 6#4
        responses := s.responses ++ [[0x06#8]] }

/-! ### Reset and the invariant (10_state.md, 70_reset_and_hazards.md) -/

/-- R260: the reset values. -/
def Obligations.ResetRegistersHoldTheSpecValues : Prop :=
  State.reset.configured = false ∧ State.reset.ktValid = false ∧ State.reset.ktSat = false ∧
  (∀ c : Fin 4, State.reset.chans[c].txValid = false ∧ State.reset.chans[c].telValid = false ∧
    State.reset.chans[c].rxLen = 0#8 ∧ State.reset.chans[c].txf = none ∧ State.reset.chans[c].tel = none ∧
    ∀ i : Fin 10, State.reset.chans[c].rxb[i] = none) ∧
  State.reset.csAcc = 0x00#8 ∧ State.reset.lastErr = 0#4 ∧
  State.reset.cfg = none ∧ State.reset.kt = none

/-- R262: reset between commands puts the registers at R260's values, whatever they held. That the parameter, the
pending inputs and the record of responses stay is THE MODEL'S CHOICE (log 8). -/
def Obligations.ResetBetweenCommandsRestoresTheResetState : Prop :=
  ∀ (s : State) (rest : List Input), s.inputs = .reset :: rest →
    step s = .next { State.reset with velScale := s.velScale, inputs := rest, responses := s.responses }

/-- The reset state meets the invariant, whatever the host will issue and whatever `VEL_SCALE` is. -/
def Obligations.ResetMeetsTheInvariant : Prop :=
  ∀ (l : List Input) (v : F64), Inv { State.reset with inputs := l, velScale := v }

/-- Every step keeps the invariant: the three of R34, R25's legal configuration, R28 and R29, R32, and R211's codes. -/
def Obligations.EveryStepKeepsTheInvariant : Prop :=
  ∀ s t : State, Inv s → step s = .next t → Inv t

/-- R219: from a state that meets the invariant no step is a fault or a refusal. -/
def Obligations.NoStepStopsFromAnInvariantState : Prop :=
  ∀ s : State, Inv s → ∃ t, step s = .next t

/-- R219 and R34 for whole runs: any list of command strings and resets, under any `VEL_SCALE`, runs from reset without
a model fault or a refusal, every step of it, and ends in a state that meets the invariant. -/
def Obligations.EveryHostProgramRunsWithoutStop : Prop :=
  ∀ (l : List Input) (v : F64) (k : Nat),
    ∃ t : State, Host.Core.run core k ({ State.reset with inputs := l, velScale := v } : State) = .next t ∧ Inv t

/-- R34's first two invariants as the host sees them. After any run from reset, a frame the `TXF` port shows verifies
under the configured algorithm (42_frame_codec.md R154). And in every state, a step makes the `TEL` port of a channel
show a record it did not show before only where it is a DECODE of that channel on a configured block, exactly 10 bytes
have been received, their byte 9 is the checksum of bytes 0 to 8 under `CFG_ALG`, and the record is their telemetry
(R157, R159, R160). -/
def Obligations.ReadableFramesAndTelemetryAreVerified : Prop :=
  (∀ (l : List Input) (v : F64) (k : Nat) (t : State) (c : Fin 4),
    Host.Core.run core k ({ State.reset with inputs := l, velScale := v } : State) = .next t →
      ∀ f, portTxf t c = .ok f → ∃ g, t.cfg = some g ∧ checksum g.alg (f.toList.take 9) = f[9]) ∧
  (∀ (s t : State) (c : Fin 4) (r : Telemetry),
    step s = .next t → portTel t c = .ok r → portTel s c ≠ .ok r →
      ∃ (rest : List Input) (g : ConfigRegs) (f : Frame),
        s.inputs = .command [0x32#8, BitVec.ofNat 8 c.val] :: rest ∧
        s.configured = true ∧ s.cfg = some g ∧
        s.chans[c].rxLen = 10#8 ∧ s.chans[c].rxb = f.map some ∧
        checksum g.alg (f.toList.take 9) = f[9] ∧ r = telemetry f)

/-- R34: the output ports of registers that hold no readable value are model faults, whatever stands in them. R55 lists
the ports of `TXF`, `TEL`, `WRAD` and `WSP`; that `RXB` and the configuration registers have ports too is read from
92_eei_decisions.md D1 ("Every register is readable on an output port", log 16), and that a port gives the fault as an
error value is THE MODEL'S FORM (log 1). -/
def Obligations.PortsFaultWhileInvalid : Prop :=
  ∀ (s : State) (c : Fin 4) (i : Fin 4) (j : Fin 10),
    (s.chans[c].txValid = false → portTxf s c = .error .noTxFrame) ∧
    (s.chans[c].telValid = false → portTel s c = .error .noTelemetry) ∧
    (s.ktValid = false → portWrad s i = .error .noSetpointValue ∧ portWsp s i = .error .noSetpointValue) ∧
    (s.chans[c].rxLen.toNat ≤ j.val → portRxb s c j = .error .noRxByte) ∧
    (s.cfg = none → portConfig s = .error .noConfigValue)

/-- R34, R219: a command that reads a register without value, in a state no run reaches, is a model fault. Which of two
such registers is named is THE MODEL'S CHOICE (log 15). -/
def Obligations.ReadsWithoutValueAreFaults : Prop :=
  ∀ (s : State) (ch b mid mode accel : Byte) (vel : Half) (vx vy wz : F64) (h : ch.toNat < 4),
    s.configured = true →
    (s.cfg = none →
      exec (.csByte b) s = .fault .noConfigValue ∧
      exec (.encode ch mid mode vel accel) s = .fault .noConfigValue ∧
      (s.ktValid = true → exec (.encodeWheel ch mode) s = .fault .noConfigValue) ∧
      (s.chans[ch.toNat].rxLen = 10#8 → exec (.decode ch) s = .fault .noConfigValue) ∧
      (isFinite vx = true → isFinite vy = true → isFinite wz = true →
        exec (.solve vx vy wz) s = .fault .noConfigValue)) ∧
    (s.cfg ≠ none → s.ktValid = true → s.kt = none → exec (.encodeWheel ch mode) s = .fault .noSetpointValue) ∧
    (s.cfg ≠ none → s.chans[ch.toNat].rxLen = 10#8 → (∃ i : Fin 10, s.chans[ch.toNat].rxb[i] = none) →
      exec (.decode ch) s = .fault .noRxByte)

/-! ### Rules of the whole machine (10_state.md, 60_exceptions.md) -/

/-- R212: every command but CONFIGURE, on an unconfigured block, raises NOT_CONFIGURED and does nothing else; the check
comes after that of ILLEGAL_OP, since only strings that decode reach it. -/
def Obligations.UnconfiguredBlockRunsOnlyConfigure : Prop :=
  ∀ (s : State) (c : List Byte) (rest : List Input) (i : Instr),
    s.inputs = .command c :: rest → decode c = .ok i → s.configured = false →
    (∀ alg hl hw radius rated midmask mid0 mid1 mid2 mid3,
      i ≠ .configure alg hl hw radius rated midmask mid0 mid1 mid2 mid3) →
      step s = .next { s with
        inputs := rest
        lastErr := 5#4
        responses := s.responses ++ [[0x05#8]] }

/-- R82, R216: on a configured block a channel number of 4 or more raises BAD_CHANNEL before anything else is looked
at, and changes nothing else. -/
def Obligations.BadChannelIsRaisedFirst : Prop :=
  ∀ (s : State) (i : Instr) (ch : Byte), s.configured = true → channelOperand i = some ch → 4 ≤ ch.toNat →
    exec i s = .next { s with lastErr := 8#4, responses := s.responses ++ [[0x08#8]] }

/-- R214 and R215: a command that raises an error writes `LAST_ERR` (and its response) and nothing else, but for a
DECODE that fails on its buffer, which also clears `TEL_VALID[ch]`, and a failed CONFIGURE, which has invalidated the
dependent state and leaves the configuration registers without a value. -/
def Obligations.ErrorsWriteNothingElse : Prop :=
  ∀ (i : Instr) (s t : State), exec i s = .next t → t.lastErr ≠ 0#4 →
    match i with
    | .configure .. =>
      t = { s with
        configured := false, cfg := none, csAcc := 0x00#8, ktValid := false, ktSat := false
        chans := s.chans.map fun k => { k with txValid := false, rxLen := 0#8, telValid := false }
        lastErr := 1#4, responses := s.responses ++ [[0x01#8]] }
    | .decode ch =>
      if t.lastErr = 2#4 ∨ t.lastErr = 3#4 ∨ t.lastErr = 4#4 then
        ∃ h : ch.toNat < 4, t = { s with
          chans := s.chans.set ch.toNat { s.chans[ch.toNat] with telValid := false }
          lastErr := t.lastErr, responses := s.responses ++ [[t.lastErr.setWidth 8]] }
      else t = { s with lastErr := t.lastErr, responses := s.responses ++ [[t.lastErr.setWidth 8]] }
    | _ => t = { s with lastErr := t.lastErr, responses := s.responses ++ [[t.lastErr.setWidth 8]] }

/-- R33, R84, R211: every command appends one response, whose byte 0 is the code that `LAST_ERR` holds, a code of 0 to
9; nothing follows it on an error, and on success a payload of the command's length. -/
def Obligations.EveryCommandReturnsOneResponse : Prop :=
  ∀ (i : Instr) (s t : State), exec i s = .next t →
    ∃ payload : List Byte,
      t.responses = s.responses ++ [t.lastErr.setWidth 8 :: payload] ∧ t.lastErr.toNat ≤ 9 ∧
      (t.lastErr ≠ 0#4 → payload = []) ∧
      (t.lastErr = 0#4 → payload.length =
        match i with
        | .configure .. => 0
        | .csInit => 1
        | .csByte _ => 1
        | .encode .. => 10
        | .encodeWheel .. => 10
        | .rxClear _ => 0
        | .rxPush .. => 1
        | .decode _ => 10
        | .solve .. => 9)

/-- R23's writers, R25, R27: each register changes only under the commands its row lists. RX_CLEAR stands among those
of `RXB`, whose bytes it leaves without value (R155, log 9). -/
def Obligations.OnlyTheListedCommandsWriteARegister : Prop :=
  ∀ (i : Instr) (s t : State), exec i s = .next t →
    t.velScale = s.velScale ∧ t.inputs = s.inputs ∧
    (match i with
      | .configure .. => True
      | _ => t.configured = s.configured ∧ t.cfg = s.cfg) ∧
    (match i with
      | .configure .. => True
      | .csInit => True
      | .csByte _ => True
      | _ => t.csAcc = s.csAcc) ∧
    (match i with
      | .configure .. => True
      | .solve .. => True
      | _ => t.ktValid = s.ktValid ∧ t.ktSat = s.ktSat) ∧
    (match i with
      | .solve .. => True
      | _ => t.kt = s.kt) ∧
    ∀ c : Fin 4,
      (match i with
        | .encode .. => True
        | .encodeWheel .. => True
        | _ => t.chans[c].txf = s.chans[c].txf) ∧
      (match i with
        | .configure .. => True
        | .encode .. => True
        | .encodeWheel .. => True
        | _ => t.chans[c].txValid = s.chans[c].txValid) ∧
      (match i with
        | .rxClear _ => True
        | .rxPush .. => True
        | _ => t.chans[c].rxb = s.chans[c].rxb) ∧
      (match i with
        | .configure .. => True
        | .rxClear _ => True
        | .rxPush .. => True
        | _ => t.chans[c].rxLen = s.chans[c].rxLen) ∧
      (match i with
        | .configure .. => True
        | .decode _ => True
        | _ => t.chans[c].telValid = s.chans[c].telValid) ∧
      (match i with
        | .decode _ => True
        | _ => t.chans[c].tel = s.chans[c].tel)

/-- R30: "The channels share no state": a command leaves every channel it does not name as it was, CONFIGURE apart. -/
def Obligations.CommandsLeaveOtherChannelsAlone : Prop :=
  ∀ (i : Instr) (s t : State) (d : Fin 4), exec i s = .next t → isConfigure i = false →
    channelOperand i ≠ some (BitVec.ofNat 8 d.val) → t.chans[d] = s.chans[d]

/-- R30, R54: what a channel holds is invisible to the commands that do not name it: with another content there, they
do the same to everything else and answer the same. -/
def Obligations.OtherChannelsContentsAreInvisible : Prop :=
  ∀ (i : Instr) (s t : State) (d : Fin 4) (k : Channel), exec i s = .next t → isConfigure i = false →
    channelOperand i ≠ some (BitVec.ofNat 8 d.val) →
      exec i { s with chans := s.chans.set d k } = .next { t with chans := t.chans.set d k }

/-! ### The checksum unit (40_checksum.md) -/

/-- R104: CS_INIT on a configured block. -/
def Obligations.CsInitClearsTheAccumulator : Prop :=
  ∀ s : State, s.configured = true →
    exec .csInit s = .next { s with
      csAcc := 0x00#8
      lastErr := 0#4
      responses := s.responses ++ [[0x00#8, 0x00#8]] }

/-- R105, R102: CS_BYTE on a configured block folds its byte in by the selected algorithm. -/
def Obligations.CsByteFoldsOneByte : Prop :=
  ∀ (s : State) (g : ConfigRegs) (b : Byte), s.configured = true → s.cfg = some g →
    let acc := match g.alg with
      | .xor => s.csAcc ^^^ b
      | .crc8 => stepCrc8 s.csAcc b
    exec (.csByte b) s = .next { s with
      csAcc := acc
      lastErr := 0#4
      responses := s.responses ++ [[0x00#8, acc]] }

/-- R105's invariant: CS_INIT and then one CS_BYTE per byte leave the checksum of the bytes in `CS_ACC`, each response
carrying the checksum so far. -/
def Obligations.StreamedBytesGiveTheChecksum : Prop :=
  ∀ (s : State) (g : ConfigRegs) (bytes : List Byte) (rest : List Input),
    s.configured = true → s.cfg = some g →
    s.inputs = asInputs (.csInit :: bytes.map fun b => .csByte b) ++ rest →
      Host.Core.run core (bytes.length + 1) s = .next { s with
        csAcc := checksum g.alg bytes
        inputs := rest
        lastErr := 0#4
        responses := s.responses ++ [[0x00#8, 0x00#8]] ++
          (List.range bytes.length).map fun n => [0x00#8, checksum g.alg (bytes.take (n + 1))] }

/-- R103 with 00_scope.md R7 ("polynomial 0x31 (x8+x5+x4+1)"): the CRC8 checksum is the remainder, over GF(2), of the
message times x^8 by the generator polynomial. -/
def Obligations.Crc8IsThePolynomialRemainder : Prop :=
  let bytePoly (b : Byte) : Polynomial (ZMod 2) :=
    ∑ i : Fin 8, if b.getLsbD i.val then Polynomial.X ^ i.val else 0
  let message (s : List Byte) : Polynomial (ZMod 2) :=
    s.foldl (fun p b => p * Polynomial.X ^ 8 + bytePoly b) 0
  ∀ s : List Byte,
    bytePoly (checksum .crc8 s) =
      (message s * Polynomial.X ^ 8) %ₘ (Polynomial.X ^ 8 + Polynomial.X ^ 5 + Polynomial.X ^ 4 + 1)

/-- R106, and R107 laws 1 and 2: a sequence followed by its own checksum verifies and has checksum 0, and a leading
zero byte changes no checksum. -/
def Obligations.HonestChecksumsAlwaysVerify : Prop :=
  ∀ (alg : Alg) (s : List Byte),
    checksum alg (s ++ [checksum alg s]).dropLast = checksum alg s ∧
    checksum alg (s ++ [checksum alg s]) = 0x00#8 ∧ checksum alg (0x00#8 :: s) = checksum alg s

/-- R107 law 4. -/
def Obligations.ChecksumsAreLinear : Prop :=
  ∀ (alg : Alg) (s e : List Byte), s.length = e.length →
    checksum alg (List.zipWith (fun a b => a ^^^ b) s e) = checksum alg s ^^^ checksum alg e

/-- R107 law 5, R162: changing exactly one byte of a frame that verifies, the checksum byte included, makes it fail to
verify, under either algorithm. -/
def Obligations.SingleByteErrorsAreDetected : Prop :=
  ∀ (alg : Alg) (f : Frame) (i : Fin 10) (b : Byte),
    frameVerifies alg f = true → b ≠ f[i] → frameVerifies alg (f.set i b) = false

/-- R107 law 3: XOR does not see the order of the bytes; CRC8 does, on [01, 02]. -/
def Obligations.XorIgnoresOrderAndCrc8DoesNot : Prop :=
  (∀ s t : List Byte, s.Perm t → checksum .xor s = checksum .xor t) ∧
  checksum .crc8 [0x01#8, 0x02#8] = 0x96#8 ∧ checksum .crc8 [0x02#8, 0x01#8] = 0xE8#8

/-- R107 law 6: two bytes of a frame changed by the same difference are not detected under XOR. -/
def Obligations.XorMissesCancellingErrors : Prop :=
  ∀ (f : Frame) (i j : Fin 10) (e : Byte), i ≠ j →
    frameVerifies .xor f = true → frameVerifies .xor ((f.set i (f[i] ^^^ e)).set j (f[j] ^^^ e)) = true

/-! ### The frame codec unit (42_frame_codec.md) -/

/-- R152, R151, R71: ENCODE on a configured block and a channel that exists. -/
def Obligations.EncodeBuildsTheRequestFrame : Prop :=
  ∀ (s : State) (g : ConfigRegs) (ch mid mode accel : Byte) (vel : Half) (h : ch.toNat < 4),
    s.configured = true → s.cfg = some g →
    let hi : Byte := vel.extractLsb' 8 8
    let lo : Byte := vel.extractLsb' 0 8
    let sum := checksum g.alg [mid, mode, hi, lo, accel, 0#8, 0#8, 0#8, 0#8]
    exec (.encode ch mid mode vel accel) s = .next { s with
      chans := s.chans.set ch.toNat { s.chans[ch.toNat] with
        txf := some #v[mid, mode, hi, lo, accel, 0#8, 0#8, 0#8, 0#8, sum], txValid := true }
      lastErr := 0#4
      responses := s.responses ++ [[0x00#8, mid, mode, hi, lo, accel, 0#8, 0#8, 0#8, 0#8, sum]] }

/-- R153: ENCODE_WHEEL on a configured block, a channel that exists and a setpoint that is valid. -/
def Obligations.EncodeWheelSendsTheSetpoint : Prop :=
  ∀ (s : State) (g : ConfigRegs) (k : KinRegs) (ch mode : Byte) (h : ch.toNat < 4),
    s.configured = true → s.cfg = some g → s.ktValid = true → s.kt = some k →
    let mid := g.mid[ch.toNat]
    let hi : Byte := k.wsp[ch.toNat].extractLsb' 8 8
    let lo : Byte := k.wsp[ch.toNat].extractLsb' 0 8
    let sum := checksum g.alg [mid, mode, hi, lo, 0#8, 0#8, 0#8, 0#8, 0#8]
    exec (.encodeWheel ch mode) s = .next { s with
      chans := s.chans.set ch.toNat { s.chans[ch.toNat] with
        txf := some #v[mid, mode, hi, lo, 0#8, 0#8, 0#8, 0#8, 0#8, sum], txValid := true }
      lastErr := 0#4
      responses := s.responses ++ [[0x00#8, mid, mode, hi, lo, 0#8, 0#8, 0#8, 0#8, 0#8, sum]] }

/-- R153: without a valid setpoint ENCODE_WHEEL raises NO_SETPOINT and changes nothing else. -/
def Obligations.EncodeWheelNeedsASetpoint : Prop :=
  ∀ (s : State) (ch mode : Byte), s.configured = true → ch.toNat < 4 → s.ktValid = false →
    exec (.encodeWheel ch mode) s = .next { s with lastErr := 9#4, responses := s.responses ++ [[0x09#8]] }

/-- R155: RX_CLEAR; telemetry survives it. That the bytes' values go is R155's "now hold no value" (log 9). -/
def Obligations.RxClearEmptiesTheBuffer : Prop :=
  ∀ (s : State) (ch : Byte) (h : ch.toNat < 4), s.configured = true →
    exec (.rxClear ch) s = .next { s with
      chans := s.chans.set ch.toNat { s.chans[ch.toNat] with rxLen := 0#8, rxb := Vector.replicate 10 none }
      lastErr := 0#4
      responses := s.responses ++ [[0x00#8]] }

/-- R156, R32: RX_PUSH stores the byte while fewer than 10 have come, counts it while fewer than 255 have, and drops it
else; the response carries the new count. -/
def Obligations.RxPushAppendsOneByte : Prop :=
  ∀ (s : State) (ch b : Byte) (h : ch.toNat < 4), s.configured = true →
    let k := s.chans[ch.toNat]
    (∀ hn : k.rxLen.toNat < 10,
      exec (.rxPush ch b) s = .next { s with
        chans := s.chans.set ch.toNat { k with rxb := k.rxb.set k.rxLen.toNat (some b), rxLen := k.rxLen + 1#8 }
        lastErr := 0#4
        responses := s.responses ++ [[0x00#8, k.rxLen + 1#8]] }) ∧
    (10 ≤ k.rxLen.toNat → k.rxLen.toNat < 255 →
      exec (.rxPush ch b) s = .next { s with
        chans := s.chans.set ch.toNat { k with rxLen := k.rxLen + 1#8 }
        lastErr := 0#4
        responses := s.responses ++ [[0x00#8, k.rxLen + 1#8]] }) ∧
    (k.rxLen.toNat = 255 →
      exec (.rxPush ch b) s = .next { s with
        lastErr := 0#4
        responses := s.responses ++ [[0x00#8, 0xFF#8]] })

/-- R158: DECODE looks at the count before anything else in the buffer: fewer than 10 bytes is SHORT_READ, more is
MALFORMED_LENGTH, whatever the bytes are. -/
def Obligations.DecodeRejectsEveryOtherLength : Prop :=
  ∀ (s : State) (ch : Byte) (h : ch.toNat < 4), s.configured = true →
    let k := s.chans[ch.toNat]
    (k.rxLen.toNat < 10 →
      exec (.decode ch) s = .next { s with
        chans := s.chans.set ch.toNat { k with telValid := false }
        lastErr := 3#4
        responses := s.responses ++ [[0x03#8]] }) ∧
    (10 < k.rxLen.toNat →
      exec (.decode ch) s = .next { s with
        chans := s.chans.set ch.toNat { k with telValid := false }
        lastErr := 4#4
        responses := s.responses ++ [[0x04#8]] })

/-- R159: a received 10-byte buffer whose byte 9 is not the checksum of bytes 0 to 8 raises CHECKSUM_MISMATCH and makes
the channel's telemetry unavailable; nothing of the frame is used. -/
def Obligations.DecodeRejectsABadChecksum : Prop :=
  ∀ (s : State) (g : ConfigRegs) (ch : Byte) (f : Frame) (h : ch.toNat < 4),
    s.configured = true → s.cfg = some g →
    s.chans[ch.toNat].rxLen = 10#8 → s.chans[ch.toNat].rxb = f.map some →
    checksum g.alg [f[0], f[1], f[2], f[3], f[4], f[5], f[6], f[7], f[8]] ≠ f[9] →
      exec (.decode ch) s = .next { s with
        chans := s.chans.set ch.toNat { s.chans[ch.toNat] with telValid := false }
        lastErr := 2#4
        responses := s.responses ++ [[0x02#8]] }

/-- R157, R160, R72, R84: a received 10-byte buffer that verifies is latched as telemetry, 16-bit fields big-endian,
position in degrees; the response carries it with `POS` in two bytes. The buffer stays. -/
def Obligations.DecodeLatchesTelemetry : Prop :=
  ∀ (s : State) (g : ConfigRegs) (ch : Byte) (f : Frame) (h : ch.toNat < 4),
    s.configured = true → s.cfg = some g →
    s.chans[ch.toNat].rxLen = 10#8 → s.chans[ch.toNat].rxb = f.map some →
    checksum g.alg [f[0], f[1], f[2], f[3], f[4], f[5], f[6], f[7], f[8]] = f[9] →
      let pos := f[7].toNat * 360 / 255
      exec (.decode ch) s = .next { s with
        chans := s.chans.set ch.toNat { s.chans[ch.toNat] with
          tel := some { mid := f[0], mode := f[1], torque := f[2] ++ f[3], vel := f[4] ++ f[5], temp := f[6],
                        pos := BitVec.ofNat 9 pos, err := f[8] }
          telValid := true }
        lastErr := 0#4
        responses := s.responses ++ [[0x00#8, f[0], f[1], f[2], f[3], f[4], f[5], f[6],
          BitVec.ofNat 8 (pos / 256), BitVec.ofNat 8 (pos % 256), f[8]]] }

/-- R161: after RX_CLEAR and one RX_PUSH per byte of a sequence of any length, DECODE answers `decode_A` of that
sequence: its telemetry, latched and readable, or its error, the telemetry unavailable. -/
def Obligations.ReceivedBytesDecodeAsTheSequence : Prop :=
  ∀ (s : State) (g : ConfigRegs) (ch : Byte) (bytes : List Byte) (rest : List Input) (h : ch.toNat < 4),
    s.configured = true → s.cfg = some g →
    s.inputs = asInputs ([.rxClear ch] ++ (bytes.map fun b => .rxPush ch b) ++ [.decode ch]) ++ rest →
      ∃ t : State, Host.Core.run core (bytes.length + 2) s = .next t ∧ t.inputs = rest ∧
        match decodeFrame g.alg bytes with
        | .ok r => t.lastErr = 0#4 ∧ t.chans[ch.toNat].telValid = true ∧ t.chans[ch.toNat].tel = some r ∧
            t.responses.getLast? = some (0x00#8 :: telemetryBytes r)
        | .error e => t.lastErr = errCode e ∧ t.chans[ch.toNat].telValid = false ∧
            t.chans[ch.toNat].tel = s.chans[ch.toNat].tel ∧
            t.responses.getLast? = some [(errCode e).setWidth 8]

/-- R157 with D8: DECODE does not consume the buffer: a second DECODE of the same channel changes no register and
repeats the response. -/
def Obligations.DecodeIsRepeatable : Prop :=
  ∀ (s t : State) (ch : Byte), exec (.decode ch) s = .next t →
    ∃ r : List Byte, t.responses = s.responses ++ [r] ∧
      exec (.decode ch) t = .next { t with responses := t.responses ++ [r] }

/-- R163: every request the codec builds verifies, and decodes to these values. -/
def Obligations.EncodedRequestsDecode : Prop :=
  ∀ (alg : Alg) (mid mode accel : Byte) (vel : Half),
    decodeFrame alg (encodeFrame alg mid mode vel accel).toList =
      .ok { mid := mid, mode := mode, torque := vel, vel := accel ++ 0x00#8, temp := 0x00#8, pos := 0#9, err := 0x00#8 }

/-- R162 with R158 and R161: of a response that verifies, the one with any single byte changed, and the one cut short
or run on, are never decoded to telemetry. -/
def Obligations.CorruptedResponsesNeverDecode : Prop :=
  ∀ (alg : Alg) (f : Frame) (i : Fin 10) (b : Byte) (n : Nat) (more : List Byte),
    frameVerifies alg f = true →
      (b ≠ f[i] → decodeFrame alg (f.set i b).toList = .error .checksumMismatch) ∧
      (n < 10 → decodeFrame alg (f.toList.take n) = .error .shortRead) ∧
      (more ≠ [] → decodeFrame alg (f.toList ++ more) = .error .malformedLength)

/-- R160: the position is at most 360 degrees, 360 only for the byte 255, 0 only for the byte 0, and grows with the
byte. -/
def Obligations.PositionStaysInRange : Prop :=
  ∀ p q : Byte, (positionDegrees p).toNat ≤ 360 ∧
    ((positionDegrees p).toNat = 360 ↔ p = 0xFF#8) ∧ ((positionDegrees p).toNat = 0 ↔ p = 0x00#8) ∧
    (p < q → (positionDegrees p).toNat < (positionDegrees q).toNat)

/-! ### Configuration (43_configure.md) -/

/-- R190, R192, R193: CONFIGURE with operands that none of R191's causes holds of. -/
def Obligations.ConfigureLatchesLegalOperands : Prop :=
  ∀ (s : State) (alg : Byte) (hl hw radius rated : F64) (midmask mid0 mid1 mid2 mid3 : Byte),
    let rc := fadd hl hw
    let limit := fdiv (fmul (fmul 0x4000000000000000#64 Config.pi64) rated) 0x404E000000000000#64
    alg.toNat ≤ 1 → isFinite hl = true → isFinite hw = true →
    isFinite radius = true → fgt radius 0#64 = true → isFinite rated = true → fgt rated 0#64 = true →
    fgt (fmul rated s.velScale) 0x40DFFFC000000000#64 = false → midmask &&& 0x0F#8 = 0x0F#8 →
    isFinite rc = true → isFinite limit = true → fgt limit 0#64 = true →
      exec (.configure alg hl hw radius rated midmask mid0 mid1 mid2 mid3) s = .next { s with
        configured := true
        cfg := some { alg := if alg = 0x01#8 then .crc8 else .xor, hl := hl, hw := hw, rc := rc, radius := radius,
                      rated := rated, limit := limit, mid := #v[mid0, mid1, mid2, mid3] }
        csAcc := 0x00#8
        ktValid := false
        ktSat := false
        chans := s.chans.map fun k => { k with txValid := false, rxLen := 0#8, telValid := false }
        lastErr := 0#4
        responses := s.responses ++ [[0x00#8]] }

/-- R191, R194: CONFIGURE with operands that one of the seven causes holds of raises CONFIGURATION_ERROR and leaves the
block unconfigured, its configuration registers without value. -/
def Obligations.ConfigureRejectsEachCause : Prop :=
  ∀ (s : State) (alg : Byte) (hl hw radius rated : F64) (midmask mid0 mid1 mid2 mid3 : Byte),
    let limit := fdiv (fmul (fmul 0x4000000000000000#64 Config.pi64) rated) 0x404E000000000000#64
    (fgt radius 0#64 = false ∨ fgt rated 0#64 = false ∨ (∃ i : Fin 4, midmask.getLsbD i.val = false) ∨
      2 ≤ alg.toNat ∨
      (isFinite hl = false ∨ isFinite hw = false ∨ isFinite radius = false ∨ isFinite rated = false) ∨
      fgt (fmul rated s.velScale) 0x40DFFFC000000000#64 = true ∨
      (isFinite (fadd hl hw) = false ∨ isFinite limit = false ∨ fgt limit 0#64 = false)) →
      exec (.configure alg hl hw radius rated midmask mid0 mid1 mid2 mid3) s = .next { s with
        configured := false
        cfg := none
        csAcc := 0x00#8
        ktValid := false
        ktSat := false
        chans := s.chans.map fun k => { k with txValid := false, rxLen := 0#8, telValid := false }
        lastErr := 1#4
        responses := s.responses ++ [[0x01#8]] }

/-- R193: success or failure, CONFIGURE leaves the state that depends on the configuration at these values. -/
def Obligations.ConfigureInvalidatesDependentState : Prop :=
  ∀ (s : State) (alg : Byte) (hl hw radius rated : F64) (midmask mid0 mid1 mid2 mid3 : Byte),
    ∃ t : State, exec (.configure alg hl hw radius rated midmask mid0 mid1 mid2 mid3) s = .next t ∧
      t.csAcc = 0x00#8 ∧ t.ktValid = false ∧ t.ktSat = false ∧
      ∀ c : Fin 4, t.chans[c].txValid = false ∧ t.chans[c].telValid = false ∧ t.chans[c].rxLen = 0#8

/-- 30_encoding.md R82: bits 7:4 of `midmask` are ignored. -/
def Obligations.ConfigureIgnoresTheReservedMaskBits : Prop :=
  ∀ (s : State) (alg : Byte) (hl hw radius rated : F64) (midmask mid0 mid1 mid2 mid3 : Byte),
    exec (.configure alg hl hw radius rated midmask mid0 mid1 mid2 mid3) s =
      exec (.configure alg hl hw radius rated (midmask &&& 0x0F#8) mid0 mid1 mid2 mid3) s

/-! ### The kinematics transform unit (41_kinematics.md) and its arithmetic (00_scope.md R11) -/

/-- R126 with R122, R123, R125 and R129: SOLVE on a configured block, finite operands and finite wheel speeds. -/
def Obligations.SolveWritesTheSetpoints : Prop :=
  ∀ (s : State) (g : ConfigRegs) (vx vy wz : F64), s.configured = true → s.cfg = some g →
    isFinite vx = true → isFinite vy = true → isFinite wz = true →
    let t := fmul g.rc wz
    let w0 := fdiv (fsub (fsub vx vy) t) g.radius
    let w1 := fdiv (fadd (fadd vx vy) t) g.radius
    let w2 := fdiv (fsub (fadd vx vy) t) g.radius
    let w3 := fdiv (fadd (fsub vx vy) t) g.radius
    isFinite w0 = true → isFinite w1 = true → isFinite w2 = true → isFinite w3 = true →
    let m := fmax4 (fabs w0) (fabs w1) (fabs w2) (fabs w3)
    let sat := fgt m g.limit
    let scale (w : F64) : F64 := if sat then fmul w (fdiv g.limit m) else w
    let wire (w : F64) : Half :=
      BitVec.ofInt 16 (max (-32768) (min (roundHalfAway
        (fmul (fdiv (fmul (scale w) 0x404E000000000000#64) (fmul 0x4000000000000000#64 Config.pi64)) s.velScale)) 32767))
    exec (.solve vx vy wz) s = .next { s with
      kt := some { wrad := #v[scale w0, scale w1, scale w2, scale w3], wsp := #v[wire w0, wire w1, wire w2, wire w3] }
      ktSat := sat
      ktValid := true
      lastErr := 0#4
      responses := s.responses ++ [[0x00#8, if sat then 0x01#8 else 0x00#8,
        (wire w0).extractLsb' 8 8, (wire w0).extractLsb' 0 8, (wire w1).extractLsb' 8 8, (wire w1).extractLsb' 0 8,
        (wire w2).extractLsb' 8 8, (wire w2).extractLsb' 0 8, (wire w3).extractLsb' 8 8, (wire w3).extractLsb' 0 8]] }

/-- R124: a velocity or a wheel speed that is not finite raises NON_FINITE, and every KTU register stays. -/
def Obligations.SolveRejectsNonFiniteValues : Prop :=
  ∀ (s : State) (g : ConfigRegs) (vx vy wz : F64), s.configured = true → s.cfg = some g →
    (isFinite vx = false ∨ isFinite vy = false ∨ isFinite wz = false ∨
      ∃ i : Fin 4, isFinite (wheelSpeeds g.rc g.radius vx vy wz)[i] = false) →
      exec (.solve vx vy wz) s = .next { s with lastErr := 7#4, responses := s.responses ++ [[0x07#8]] }

/-- R127: under a legal configuration and a finite `VEL_SCALE`, zero velocities, of any signs, give zero wheel speeds
and zero setpoints, unscaled. -/
def Obligations.ZeroVelocityGivesZeroSetpoints : Prop :=
  ∀ (s : State) (g : ConfigRegs) (vx vy wz : F64), s.configured = true → s.cfg = some g → ConfigLegal s.velScale g →
    isFinite s.velScale = true → isZero vx = true → isZero vy = true → isZero wz = true →
      ∃ k : KinRegs, (∀ i : Fin 4, isZero k.wrad[i] = true ∧ k.wsp[i] = 0#16) ∧
        exec (.solve vx vy wz) s = .next { s with
          kt := some k
          ktSat := false
          ktValid := true
          lastErr := 0#4
          responses := s.responses ++ [[0#8, 0#8, 0#8, 0#8, 0#8, 0#8, 0#8, 0#8, 0#8, 0#8]] }

/-- R124's derivation: with a finite positive limit, finite wheel speeds stay finite through the saturation; the scale
factor is between 0 and 1. -/
def Obligations.ScaledSpeedsStayFinite : Prop :=
  ∀ (limit : F64) (w : Vector F64 4), isFinite limit = true → fgt limit 0#64 = true →
    (∀ i : Fin 4, isFinite w[i] = true) →
      (∀ i : Fin 4, isFinite (saturate limit w).1[i] = true) ∧
      (fgt (maxAbs w) limit = true →
        isFinite (fdiv limit (maxAbs w)) = true ∧ fgt 0#64 (fdiv limit (maxAbs w)) = false ∧
        fgt (fdiv limit (maxAbs w)) 0x3FF0000000000000#64 = false)

/-- R124 with 93_implementation_defined.md item 17: every step keeps NaNs and infinities out of the readable `WRAD`. -/
def Obligations.StoredWheelSpeedsStayFinite : Prop :=
  ∀ s t : State, Inv s → WheelSpeedsFinite s → step s = .next t → WheelSpeedsFinite t

/-- R11: `fadd`, `fsub`, `fmul` and `fdiv` on finite operands are each correctly rounded. Values count units of 2^-1074;
the exact result is `num / den` of them. The result is finite exactly below the midpoint between the greatest finite
value and the next power of two; then no finite value is nearer, and of two equally near the even one is taken; else it
is an infinity. It has the exact result's sign. -/
def Obligations.ArithmeticIsCorrectlyRounded : Prop :=
  let correct (r : F64) (num : Int) (den : Nat) : Prop :=
    (isFinite r = true ↔ num.natAbs < (2 ^ 54 - 1) * 2 ^ 2044 * den) ∧
    (isFinite r = true → ∀ y : F64, isFinite y = true →
      |val r * den - num| ≤ |val y * den - num| ∧
      (val y ≠ val r → |val y * den - num| = |val r * den - num| → fracField r % 2 = 0)) ∧
    (isFinite r = false → isInf r = true) ∧
    (num < 0 → signBit r = true) ∧ (0 < num → signBit r = false)
  ∀ a b : F64, isFinite a = true → isFinite b = true →
    correct (fadd a b) (val a + val b) 1 ∧
    correct (fsub a b) (val a - val b) 1 ∧
    correct (fmul a b) (val a * val b) (2 ^ 1074) ∧
    (isZero b = false → correct (fdiv a b) (val a * 2 ^ 1074 * (val b).sign) (val b).natAbs)

/-- What IEEE 754, which R11 names, gives for the operands ArithmeticIsCorrectlyRounded leaves out: NaNs, infinities and
divisors of zero, and the sign of a zero, of a product and of a quotient (log 17). That a NaN's payload is not stated is
why the results are only said to be NaNs (log 4). -/
def Obligations.SpecialValuesFollowIeee754 : Prop :=
  ∀ a b : F64,
    (isNaN a = true ∨ isNaN b = true →
      isNaN (fadd a b) = true ∧ isNaN (fsub a b) = true ∧ isNaN (fmul a b) = true ∧ isNaN (fdiv a b) = true) ∧
    (isInf a = true → isFinite b = true →
      fadd a b = a ∧ fadd b a = a ∧ fsub a b = a ∧ fsub b a = a ^^^ 0x8000000000000000#64) ∧
    (isInf a = true → isInf b = true →
      (signBit a = signBit b → fadd a b = a ∧ isNaN (fsub a b) = true) ∧
      (signBit a ≠ signBit b → isNaN (fadd a b) = true ∧ fsub a b = a)) ∧
    (isFinite a = true → isFinite b = true →
      (val a + val b = 0 → isZero (fadd a b) = true ∧ signBit (fadd a b) = (signBit a && signBit b)) ∧
      (val a - val b = 0 → isZero (fsub a b) = true ∧ signBit (fsub a b) = (signBit a && !signBit b))) ∧
    (isInf a = true → isZero b = true → isNaN (fmul a b) = true ∧ isNaN (fmul b a) = true) ∧
    (isInf a = true → isZero b = false → isNaN b = false → isInf (fmul a b) = true ∧ isInf (fmul b a) = true) ∧
    (isInf a = true → isInf b = true → isNaN (fdiv a b) = true) ∧
    (isInf a = true → isFinite b = true → isInf (fdiv a b) = true) ∧
    (isFinite a = true → isInf b = true → isZero (fdiv a b) = true) ∧
    (isZero a = true → isZero b = true → isNaN (fdiv a b) = true) ∧
    (isFinite a = true → isZero a = false → isZero b = true → isInf (fdiv a b) = true) ∧
    (isNaN (fmul a b) = false → signBit (fmul a b) = (signBit a != signBit b)) ∧
    (isNaN (fdiv a b) = false → signBit (fdiv a b) = (signBit a != signBit b))

/-- R11: `fgt` is the order of the values, infinities included (a product that overflows is greater than every finite
value, as 43_configure.md R191 cause 6 needs), and false of a NaN; `fabs` is the magnitude, and `fmax4` the largest of
values that are not NaN. -/
def Obligations.ComparisonsFollowTheValues : Prop :=
  let value (x : F64) : WithBot (WithTop Int) :=
    if isInf x then (if signBit x then ⊥ else ((⊤ : WithTop Int) : WithBot (WithTop Int)))
    else (((val x : Int) : WithTop Int) : WithBot (WithTop Int))
  (∀ a b : F64, isNaN a = false → isNaN b = false → (fgt a b = true ↔ value b < value a)) ∧
  (∀ a b : F64, isNaN a = true ∨ isNaN b = true → fgt a b = false) ∧
  (∀ a : F64, isFinite a = true → isFinite (fabs a) = true ∧ val (fabs a) = |val a|) ∧
  (∀ a : F64, isInf a = true → isInf (fabs a) = true ∧ signBit (fabs a) = false) ∧
  (∀ a : F64, isNaN a = true → isNaN (fabs a) = true) ∧
  (∀ a b c d : F64, isNaN a = false → isNaN b = false → isNaN c = false → isNaN d = false →
    value (fmax4 a b c d) = max (max (max (value a) (value b)) (value c)) (value d))

/-- R11: `roundHalfAway` of a finite value is the integer nearest it, halfway cases away from zero, as exact arithmetic
over the rationals gives it. -/
def Obligations.WireRoundingIsHalfAwayFromZero : Prop :=
  ∀ x : F64, isFinite x = true → roundHalfAway x = exactRoundHalfAway ((val x : ℚ) / 2 ^ 1074)

/-- R128, exact reals (R130): over any ordered field, scaling brings the largest magnitude to the limit exactly and
keeps every ratio; at or below the limit nothing changes. -/
def Obligations.ExactSaturationKeepsRatios : Prop :=
  ∀ (K : Type) [Field K] [LinearOrder K] [IsStrictOrderedRing K] (limit : K) (w : Vector K 4), 0 < limit →
    (limit < exactMaxAbs w →
      exactMaxAbs (exactSaturate limit w).1 = limit ∧ (exactSaturate limit w).2 = true ∧
      ∀ i j : Fin 4, w[j] ≠ 0 → (exactSaturate limit w).1[i] / (exactSaturate limit w).1[j] = w[i] / w[j]) ∧
    (exactMaxAbs w ≤ limit → exactSaturate limit w = (w, false))

/-! ### The assembler (30_encoding.md R86, R87) and the host contract (60_exceptions.md) -/

/-- R87: the three pseudo-commands. R87 gives the form without byte operands for CS_BLOCK only: that RX_FRAME without
bytes, which the second clause takes in, is RX_CLEAR alone is THE MODEL'S CHOICE (log 13). -/
def Obligations.PseudoCommandsExpand : Prop :=
  (∀ ch mid mode vel : Int, expand (.encode ch mid mode vel none) = expand (.encode ch mid mode vel (some 0))) ∧
  (∀ (ch : Int) (bytes : List Int),
    expand (.rxFrame ch bytes) = expand (.rxClear ch) ++ bytes.flatMap fun b => expand (.rxPush ch b)) ∧
  (∀ bytes : List Int, expand (.csBlock bytes) = expand .csInit ++ bytes.flatMap fun b => expand (.csByte b))

/-- R230, R233, R235: an awaited exchange ends as validated exactly when a DECODE answers success; a failed one keeps
its cause and only ever goes back to idle, never to a retry; a timeout is not a checksum mismatch. -/
def Obligations.ExchangesEndAsTheContractSays : Prop :=
  (∀ (r : Bool) (x : ExchangeState) (e : ExchangeEvent),
    exchangeNext r x e = some .validated ↔ x = .awaitingResponse ∧ e = .decodeAnswered 0#4) ∧
  (∀ (r : Bool) (why : ExchangeError) (e : ExchangeEvent) (y : ExchangeState),
    exchangeNext r (.failed why) e = some y → y = .idle) ∧
  (∀ (r : Bool) (x : ExchangeState) (e : ExchangeEvent),
    exchangeNext r x e = some (.failed .timeoutError) ↔ x = .awaitingResponse ∧ e = .responseTimedOut)
end

