-- ==== Sys2Proof/Laws/State.lean ====
section
/-! SUPPORT. What each state update does to each field, so that no later proof unfolds a record update. -/

namespace Sys2Proof.Machine

variable (s : State) (c d : Fin Config.nch) (k : Channel) (f : Frame) (t : Telemetry)

@[simp] theorem setChan_configured : (setChan s c k).configured = s.configured := rfl
@[simp] theorem setChan_cfg : (setChan s c k).cfg = s.cfg := rfl
@[simp] theorem setChan_csAcc : (setChan s c k).csAcc = s.csAcc := rfl
@[simp] theorem setChan_ktValid : (setChan s c k).ktValid = s.ktValid := rfl
@[simp] theorem setChan_ktSat : (setChan s c k).ktSat = s.ktSat := rfl
@[simp] theorem setChan_kt : (setChan s c k).kt = s.kt := rfl
@[simp] theorem setChan_chans : (setChan s c k).chans = s.chans.set c k := rfl
@[simp] theorem setChan_lastErr : (setChan s c k).lastErr = s.lastErr := rfl
@[simp] theorem setChan_velScale : (setChan s c k).velScale = s.velScale := rfl
@[simp] theorem setChan_inputs : (setChan s c k).inputs = s.inputs := rfl
@[simp] theorem setChan_responses : (setChan s c k).responses = s.responses := rfl

@[simp] theorem latchTx_configured : (latchTx s c f).configured = s.configured := rfl
@[simp] theorem latchTx_cfg : (latchTx s c f).cfg = s.cfg := rfl
@[simp] theorem latchTx_csAcc : (latchTx s c f).csAcc = s.csAcc := rfl
@[simp] theorem latchTx_ktValid : (latchTx s c f).ktValid = s.ktValid := rfl
@[simp] theorem latchTx_ktSat : (latchTx s c f).ktSat = s.ktSat := rfl
@[simp] theorem latchTx_kt : (latchTx s c f).kt = s.kt := rfl
@[simp] theorem latchTx_lastErr : (latchTx s c f).lastErr = s.lastErr := rfl
@[simp] theorem latchTx_velScale : (latchTx s c f).velScale = s.velScale := rfl
@[simp] theorem latchTx_inputs : (latchTx s c f).inputs = s.inputs := rfl
@[simp] theorem latchTx_responses : (latchTx s c f).responses = s.responses := rfl

@[simp] theorem latchTel_configured : (latchTel s c t).configured = s.configured := rfl
@[simp] theorem latchTel_cfg : (latchTel s c t).cfg = s.cfg := rfl
@[simp] theorem latchTel_csAcc : (latchTel s c t).csAcc = s.csAcc := rfl
@[simp] theorem latchTel_ktValid : (latchTel s c t).ktValid = s.ktValid := rfl
@[simp] theorem latchTel_ktSat : (latchTel s c t).ktSat = s.ktSat := rfl
@[simp] theorem latchTel_kt : (latchTel s c t).kt = s.kt := rfl
@[simp] theorem latchTel_lastErr : (latchTel s c t).lastErr = s.lastErr := rfl
@[simp] theorem latchTel_velScale : (latchTel s c t).velScale = s.velScale := rfl
@[simp] theorem latchTel_inputs : (latchTel s c t).inputs = s.inputs := rfl
@[simp] theorem latchTel_responses : (latchTel s c t).responses = s.responses := rfl

@[simp] theorem dropTel_configured : (dropTel s c).configured = s.configured := rfl
@[simp] theorem dropTel_cfg : (dropTel s c).cfg = s.cfg := rfl
@[simp] theorem dropTel_csAcc : (dropTel s c).csAcc = s.csAcc := rfl
@[simp] theorem dropTel_ktValid : (dropTel s c).ktValid = s.ktValid := rfl
@[simp] theorem dropTel_ktSat : (dropTel s c).ktSat = s.ktSat := rfl
@[simp] theorem dropTel_kt : (dropTel s c).kt = s.kt := rfl
@[simp] theorem dropTel_lastErr : (dropTel s c).lastErr = s.lastErr := rfl
@[simp] theorem dropTel_velScale : (dropTel s c).velScale = s.velScale := rfl
@[simp] theorem dropTel_inputs : (dropTel s c).inputs = s.inputs := rfl
@[simp] theorem dropTel_responses : (dropTel s c).responses = s.responses := rfl

@[simp] theorem invalidate_configured : (invalidate s).configured = false := rfl
@[simp] theorem invalidate_cfg : (invalidate s).cfg = s.cfg := rfl
@[simp] theorem invalidate_csAcc : (invalidate s).csAcc = Config.checksumInit := rfl
@[simp] theorem invalidate_ktValid : (invalidate s).ktValid = false := rfl
@[simp] theorem invalidate_ktSat : (invalidate s).ktSat = false := rfl
@[simp] theorem invalidate_kt : (invalidate s).kt = s.kt := rfl
@[simp] theorem invalidate_chans : (invalidate s).chans = s.chans.map invalidateChan := rfl
@[simp] theorem invalidate_lastErr : (invalidate s).lastErr = s.lastErr := rfl
@[simp] theorem invalidate_velScale : (invalidate s).velScale = s.velScale := rfl
@[simp] theorem invalidate_inputs : (invalidate s).inputs = s.inputs := rfl
@[simp] theorem invalidate_responses : (invalidate s).responses = s.responses := rfl

@[simp] theorem resetBlock_configured : (resetBlock s).configured = false := rfl
@[simp] theorem resetBlock_cfg : (resetBlock s).cfg = none := rfl
@[simp] theorem resetBlock_csAcc : (resetBlock s).csAcc = 0x00#8 := rfl
@[simp] theorem resetBlock_ktValid : (resetBlock s).ktValid = false := rfl
@[simp] theorem resetBlock_ktSat : (resetBlock s).ktSat = false := rfl
@[simp] theorem resetBlock_kt : (resetBlock s).kt = none := rfl
@[simp] theorem resetBlock_chans : (resetBlock s).chans = Vector.replicate 4 Channel.reset := rfl
@[simp] theorem resetBlock_lastErr : (resetBlock s).lastErr = 0#4 := rfl
@[simp] theorem resetBlock_velScale : (resetBlock s).velScale = s.velScale := rfl
@[simp] theorem resetBlock_inputs : (resetBlock s).inputs = s.inputs := rfl
@[simp] theorem resetBlock_responses : (resetBlock s).responses = s.responses := rfl

@[simp] theorem submitNext_configured (bytes : List Byte) : (submitNext s bytes).configured = s.configured := rfl
@[simp] theorem submitNext_cfg (bytes : List Byte) : (submitNext s bytes).cfg = s.cfg := rfl
@[simp] theorem submitNext_csAcc (bytes : List Byte) : (submitNext s bytes).csAcc = s.csAcc := rfl
@[simp] theorem submitNext_ktValid (bytes : List Byte) : (submitNext s bytes).ktValid = s.ktValid := rfl
@[simp] theorem submitNext_ktSat (bytes : List Byte) : (submitNext s bytes).ktSat = s.ktSat := rfl
@[simp] theorem submitNext_kt (bytes : List Byte) : (submitNext s bytes).kt = s.kt := rfl
@[simp] theorem submitNext_chans (bytes : List Byte) : (submitNext s bytes).chans = s.chans := rfl
@[simp] theorem submitNext_lastErr (bytes : List Byte) : (submitNext s bytes).lastErr = s.lastErr := rfl
@[simp] theorem submitNext_velScale (bytes : List Byte) : (submitNext s bytes).velScale = s.velScale := rfl
@[simp] theorem submitNext_inputs (bytes : List Byte) : (submitNext s bytes).inputs = .command bytes :: s.inputs := rfl
@[simp] theorem submitNext_responses (bytes : List Byte) : (submitNext s bytes).responses = s.responses := rfl

@[simp] theorem clearRx_txf : (clearRx k).txf = k.txf := rfl
@[simp] theorem clearRx_txValid : (clearRx k).txValid = k.txValid := rfl
@[simp] theorem clearRx_rxb : (clearRx k).rxb = Vector.replicate 10 none := rfl
@[simp] theorem clearRx_rxLen : (clearRx k).rxLen = 0#8 := rfl
@[simp] theorem clearRx_telValid : (clearRx k).telValid = k.telValid := rfl
@[simp] theorem clearRx_tel : (clearRx k).tel = k.tel := rfl

@[simp] theorem pushRx_txf (b : Byte) : (pushRx k b).txf = k.txf := rfl
@[simp] theorem pushRx_txValid (b : Byte) : (pushRx k b).txValid = k.txValid := rfl
@[simp] theorem pushRx_rxb (b : Byte) : (pushRx k b).rxb = if h : k.rxLen.toNat < 10 then k.rxb.set k.rxLen.toNat (some b) else k.rxb := rfl
@[simp] theorem pushRx_rxLen (b : Byte) : (pushRx k b).rxLen = if k.rxLen < Config.rxLenMax then k.rxLen + 1#8 else k.rxLen := rfl
@[simp] theorem pushRx_telValid (b : Byte) : (pushRx k b).telValid = k.telValid := rfl
@[simp] theorem pushRx_tel (b : Byte) : (pushRx k b).tel = k.tel := rfl

@[simp] theorem invalidateChan_txf : (invalidateChan k).txf = k.txf := rfl
@[simp] theorem invalidateChan_txValid : (invalidateChan k).txValid = false := rfl
@[simp] theorem invalidateChan_rxb : (invalidateChan k).rxb = k.rxb := rfl
@[simp] theorem invalidateChan_rxLen : (invalidateChan k).rxLen = 0#8 := rfl
@[simp] theorem invalidateChan_telValid : (invalidateChan k).telValid = false := rfl
@[simp] theorem invalidateChan_tel : (invalidateChan k).tel = k.tel := rfl

/-! Reading a channel after an update. -/

@[simp] theorem chanOf_setChan_same : chanOf (setChan s c k) c = k := by
  simp [chanOf, setChan]

theorem chanOf_setChan_ne (h : c ≠ d) : chanOf (setChan s c k) d = chanOf s d := by
  simp [chanOf, setChan, Fin.val_ne_of_ne h]

@[simp] theorem chanOf_latchTx_same : chanOf (latchTx s c f) c = { chanOf s c with txf := some f, txValid := true } :=
  chanOf_setChan_same ..

@[simp] theorem chanOf_latchTel_same : chanOf (latchTel s c t) c = { chanOf s c with tel := some t, telValid := true } :=
  chanOf_setChan_same ..

@[simp] theorem chanOf_dropTel_same : chanOf (dropTel s c) c = { chanOf s c with telValid := false } :=
  chanOf_setChan_same ..

theorem chanOf_latchTx_ne (h : c ≠ d) : chanOf (latchTx s c f) d = chanOf s d := chanOf_setChan_ne _ _ _ _ h

theorem chanOf_latchTel_ne (h : c ≠ d) : chanOf (latchTel s c t) d = chanOf s d := chanOf_setChan_ne _ _ _ _ h

theorem chanOf_dropTel_ne (h : c ≠ d) : chanOf (dropTel s c) d = chanOf s d := chanOf_setChan_ne _ _ _ _ h

@[simp] theorem chanOf_invalidate : chanOf (invalidate s) c = invalidateChan (chanOf s c) := by
  simp [chanOf, invalidate]

@[simp] theorem chanOf_resetBlock : chanOf (resetBlock s) c = Channel.reset := by
  simp [chanOf]

end Sys2Proof.Machine
end

