-- ==== Sys2Proof/Laws/Ops.lean ====
section
/-! SUPPORT. One lemma per shared operation that says once everything it can do; proofs cite these instead of unfolding
the operation. -/

namespace Sys2Proof.Machine

open Host (Outcome)

variable {s t : State} {c : Fin Config.nch} {k : Channel}

/-! Answering and raising. -/

theorem ok_eq (data : List Byte) (s : State) :
    ok data s = .next { s with lastErr := 0#4, responses := s.responses ++ [0x00#8 :: data] } := rfl

theorem raise_eq (e : ErrCode) (s : State) :
    raise e s = .next { s with lastErr := errCode e, responses := s.responses ++ [[statusByte (errCode e)]] } := rfl

theorem errCode_ne_zero (e : ErrCode) : errCode e ≠ 0#4 := by cases e <;> decide

theorem errCode_le_nine (e : ErrCode) : (errCode e).toNat ≤ 9 := by cases e <;> decide

/-! The checks a command begins with. -/

theorem ifConfigured_next {rest : Result} (h : ifConfigured s rest = .next t) :
    (s.configured = true ∧ rest = .next t) ∨ (s.configured = false ∧ raise .notConfigured s = .next t) := by
  cases hc : s.configured <;> simp [ifConfigured, hc] at h ⊢ <;> exact h

theorem ifConfigured_pos {rest : Result} (h : s.configured = true) : ifConfigured s rest = rest := by
  simp [ifConfigured, h]

theorem ifConfigured_neg {rest : Result} (h : s.configured = false) :
    ifConfigured s rest = raise .notConfigured s := by
  simp [ifConfigured, h]

theorem withChannel_next {ch : Byte} {rest : Fin Config.nch → Result} (h : withChannel ch s rest = .next t) :
    (∃ c : Fin Config.nch, c.val = ch.toNat ∧ rest c = .next t) ∨
      (Config.nch ≤ ch.toNat ∧ raise .badChannel s = .next t) := by
  unfold withChannel at h
  split at h
  · exact .inl ⟨_, rfl, h⟩
  · exact .inr ⟨by omega, h⟩

theorem withChannel_pos {ch : Byte} {rest : Fin Config.nch → Result} (h : ch.toNat < Config.nch) :
    withChannel ch s rest = rest ⟨ch.toNat, h⟩ := by
  simp [withChannel, h]

theorem withChannel_neg {ch : Byte} {rest : Fin Config.nch → Result} (h : Config.nch ≤ ch.toNat) :
    withChannel ch s rest = raise .badChannel s := by
  simp [withChannel, Nat.not_lt.mpr h]

/-! Reads of registers. -/

theorem withRead_next {α : Type} {r : Except Fault α} {rest : α → Result} (h : withRead r rest = .next t) :
    ∃ a, r = .ok a ∧ rest a = .next t := by
  cases r with
  | ok a => exact ⟨a, rfl, h⟩
  | error f => simp [withRead] at h

@[simp] theorem withRead_ok {α : Type} (a : α) (rest : α → Result) : withRead (.ok a) rest = rest a := rfl

@[simp] theorem withRead_error {α : Type} (f : Fault) (rest : α → Result) : withRead (.error f) rest = .fault f := rfl

theorem readConfig_ok_iff {g : ConfigRegs} : readConfig s = .ok g ↔ s.cfg = some g := by
  cases h : s.cfg <;> simp [readConfig, h]

theorem readSetpoints_ok_iff {g : KinRegs} : readSetpoints s = .ok g ↔ s.ktValid = true ∧ s.kt = some g := by
  cases hv : s.ktValid <;> cases hk : s.kt <;> simp [readSetpoints, hv, hk]

theorem readRx_ok_iff {i : Fin 10} {b : Byte} :
    readRx k i = .ok b ↔ i.val < min k.rxLen.toNat 10 ∧ k.rxb[i] = some b := by
  unfold readRx
  split
  · rename_i hlt
    cases h : k.rxb[i] <;> simp [hlt]
  · rename_i hlt
    simp [hlt]

/-- A full buffer is readable when every slot holds a value, and reads as those values. -/
theorem readRxFrame_full {f : Frame} (hl : 10 ≤ k.rxLen.toNat) (hb : k.rxb = f.map some) :
    readRxFrame k = .ok f := by
  have hr : ∀ i : Fin 10, readRx k i = .ok f[i] := fun i =>
    readRx_ok_iff.mpr ⟨by omega, by simp [hb]⟩
  have hf : f = #v[f[0], f[1], f[2], f[3], f[4], f[5], f[6], f[7], f[8], f[9]] := by
    ext i hi
    interval_cases i <;> rfl
  simp only [readRxFrame, hr]
  conv_rhs => rw [hf]
  rfl

/-- What a readable buffer reads as stands in its slots. -/
theorem readRxFrame_ok {f : Frame} (h : readRxFrame k = .ok f) (i : Fin 10) : k.rxb[i] = some f[i] := by
  unfold readRxFrame at h
  have bind_ok : ∀ {α β : Type} {x : Except Fault α} {g : α → Except Fault β} {b : β},
      (x >>= g) = .ok b → ∃ a, x = .ok a ∧ g a = .ok b := by
    intro α β x g b hx
    cases x with
    | ok a => exact ⟨a, rfl, hx⟩
    | error e => simp [bind, Except.bind] at hx
  obtain ⟨b0, h0, h⟩ := bind_ok h
  obtain ⟨b1, h1, h⟩ := bind_ok h
  obtain ⟨b2, h2, h⟩ := bind_ok h
  obtain ⟨b3, h3, h⟩ := bind_ok h
  obtain ⟨b4, h4, h⟩ := bind_ok h
  obtain ⟨b5, h5, h⟩ := bind_ok h
  obtain ⟨b6, h6, h⟩ := bind_ok h
  obtain ⟨b7, h7, h⟩ := bind_ok h
  obtain ⟨b8, h8, h⟩ := bind_ok h
  obtain ⟨b9, h9, h⟩ := bind_ok h
  obtain rfl : #v[b0, b1, b2, b3, b4, b5, b6, b7, b8, b9] = f := by simpa [pure, Except.pure] using h
  fin_cases i
  exacts [(readRx_ok_iff.mp h0).2, (readRx_ok_iff.mp h1).2, (readRx_ok_iff.mp h2).2, (readRx_ok_iff.mp h3).2,
    (readRx_ok_iff.mp h4).2, (readRx_ok_iff.mp h5).2, (readRx_ok_iff.mp h6).2, (readRx_ok_iff.mp h7).2,
    (readRx_ok_iff.mp h8).2, (readRx_ok_iff.mp h9).2]

/-! The pieces of the commands that decide an outcome. -/

theorem checkResponse_ok_iff {alg : Alg} {f : Frame} {r : Telemetry} :
    checkResponse alg f = .ok r ↔ frameVerifies alg f = true ∧ telemetry f = r := by
  unfold checkResponse
  split <;> rename_i h <;> simp [h]

theorem checkResponse_error_iff {alg : Alg} {f : Frame} {e : ErrCode} :
    checkResponse alg f = .error e ↔ frameVerifies alg f = false ∧ e = .checksumMismatch := by
  unfold checkResponse
  split <;> rename_i h <;> simp [h, eq_comm]

theorem saturate_unscaled {limit : F64} {w : Vector F64 4} (h : fgt (maxAbs w) limit = false) :
    saturate limit w = (w, false) := by
  simp [saturate, h]

theorem saturate_scaled {limit : F64} {w : Vector F64 4} (h : fgt (maxAbs w) limit = true) :
    saturate limit w = (w.map fun x => fmul x (fdiv limit (maxAbs w)), true) := by
  simp [saturate, h]

/-! The command port. -/

theorem runCommand_of_decode {bytes : List Byte} {i : Instr} (h : decode bytes = .ok i) :
    runCommand bytes s = exec i s := by
  simp [runCommand, h]

theorem runCommand_of_error {bytes : List Byte} {e : CommandError} (h : decode bytes = .error e) :
    runCommand bytes s = raise .illegalOp s := by
  simp [runCommand, h]

theorem step_idle (h : s.inputs = []) : step s = .next s := by
  simp [step, takeInput, h]

theorem step_reset {rest : List Input} (h : s.inputs = .reset :: rest) :
    step s = .next (resetBlock { s with inputs := rest }) := by
  simp [step, takeInput, h]

theorem step_command {bytes : List Byte} {rest : List Input} (h : s.inputs = .command bytes :: rest) :
    step s = runCommand bytes { s with inputs := rest } := by
  simp [step, takeInput, h]

end Sys2Proof.Machine
end

