-- ==== Sys2Proof/Machine/HostSystem.lean ====
section
/-! DEFINITION. The system of host, transport and block (00_scope.md R14): the moves of a host that keeps its duties
(60_exceptions.md R230 to R239), each with what it does to the block. The block itself runs commands that break them, and
`step` does not consult this file (log 14). -/

namespace Sys2Proof.Machine

/-- One move of the system. -/
inductive SystemMove where
  /-- The host issues a command and the block answers it. No duty of R239 forbids a host an illegal command string
  (30_encoding.md R83, 60_exceptions.md R213); that the host of this system submits only the strings of commands is a
  DESIGN CHOICE (log 22). The block itself answers every string (`runCommand`). -/
  | issue (i : Instr)
  /-- The host starts an exchange. -/
  | start (c : Fin Config.nch) (expectReply : Bool)
  /-- The transport delivers a byte of a response. -/
  | receive (c : Fin Config.nch) (b : Byte)
  /-- Another event of an exchange. -/
  | event (c : Fin Config.nch) (e : ExchangeEvent)
  /-- The block is reset between commands. -/
  | reset
  deriving DecidableEq, Repr

/-- The block's next step on an input that stands before all others; none where it stops. -/
def blockTakes (a : Input) (s : State) : Option State :=
  match step { s with inputs := a :: s.inputs } with
  | .next t => some t
  | .fault _ => none
  | .refused _ => none

/-- The system's next state: none where the host's duties or the contract give the move no place. A command's answer
carries the code that `LAST_ERR` then holds (10_state.md R33), so a DECODE's own answer is what moves its exchange. -/
def systemNext (m : SystemMove) (h : HostView) (s : State) : Option (HostView × State) :=
  match m with
  | .issue i =>
    if hostMayIssue h s i then
      (blockTakes (.command (encode i)) s).map fun t => (hostIssued h i (portLastErr t), t)
    else none
  | .start c expectReply => (hostStart expectReply h s c).map fun k => (k, s)
  | .receive c b => some (hostReceives h c b, s)
  | .event c e => (hostEvent h s c e).map fun k => (k, s)
  | .reset => (blockTakes .reset s).map fun t => (HostView.initial, t)

/-- A run of the system, move by move. -/
def systemRun (ms : List SystemMove) (h : HostView) (s : State) : Option (HostView × State) :=
  match ms with
  | [] => some (h, s)
  | m :: rest => (systemNext m h s).bind fun p => systemRun rest p.1 p.2

end Sys2Proof.Machine
end

