-- ==== Sys2Proof/Laws/Exchange.lean ====
section
/-! SUPPORT. What the host's duties and moves say (60_exceptions.md R230 to R239): one lemma per duty or move, cited
instead of unfolding it. -/

namespace Sys2Proof.Machine

variable {h k : HostView} {s t : State} {c : Fin Config.nch}

theorem onHostChannel_pos {ch : Byte} {p : Fin Config.nch → Bool} (hc : ch.toNat < Config.nch) :
    onHostChannel ch p = p ⟨ch.toNat, hc⟩ := by
  simp [onHostChannel, hc]

theorem updateHost_pos {ch : Byte} {f : HostChannel → HostChannel} (hc : ch.toNat < Config.nch) :
    updateHost h ch f = h.set ch.toNat (f h[ch.toNat]) := by
  simp [updateHost, hc]

/-- R261: a host that keeps its duties never meets NOT_CONFIGURED. -/
theorem hostMayIssue_configured {i : Instr} (hi : hostMayIssue h s i = true) :
    (∃ alg hl hw radius rated midmask mid0 mid1 mid2 mid3,
      i = .configure alg hl hw radius rated midmask mid0 mid1 mid2 mid3) ∨ s.configured = true := by
  cases i with
  | configure => exact .inl ⟨_, _, _, _, _, _, _, _, _, _, rfl⟩
  | _ => exact .inr (by simp [hostMayIssue, setupLets, portConfigured] at hi; exact hi.1)

/-- R232, R270: a frame is encoded outside any exchange of its channel and over none still to be transmitted. -/
theorem hostMayIssue_encode {ch mid mode accel : Byte} {vel : Half} (hc : ch.toNat < Config.nch)
    (hi : hostMayIssue h s (.encode ch mid mode vel accel) = true) :
    inFlight h[ch.toNat].exchange = false ∧ h[ch.toNat].prepared = .nothing := by
  simp only [hostMayIssue, exchangeLets, onHostChannel_pos hc, mayEncode, Bool.and_eq_true, Bool.not_eq_true',
    beq_iff_eq] at hi
  exact hi.2

theorem hostMayIssue_encodeWheel {ch mode : Byte} (hc : ch.toNat < Config.nch)
    (hi : hostMayIssue h s (.encodeWheel ch mode) = true) :
    inFlight h[ch.toNat].exchange = false ∧ h[ch.toNat].prepared = .nothing := by
  simp only [hostMayIssue, exchangeLets, onHostChannel_pos hc, mayEncode, Bool.and_eq_true, Bool.not_eq_true',
    beq_iff_eq] at hi
  exact hi.2

/-- R274: RX_CLEAR inside an exchange comes before any byte is pushed. -/
theorem hostMayIssue_rxClear {ch : Byte} (hc : ch.toNat < Config.nch)
    (hi : hostMayIssue h s (.rxClear ch) = true) (hf : inFlight h[ch.toNat].exchange = true) :
    portRxLen s ⟨ch.toNat, hc⟩ = 0#8 := by
  simp only [hostMayIssue, exchangeLets, onHostChannel_pos hc, mayClear, Bool.and_eq_true, Bool.or_eq_true,
    Bool.not_eq_true', beq_iff_eq] at hi
  exact hi.2.resolve_left (by simp [hf])

/-- R277: a byte the host may push is the oldest that has arrived, and pushing it takes that one off. -/
theorem hostMayIssue_rxPush {ch b : Byte} (hc : ch.toNat < Config.nch)
    (hi : hostMayIssue h s (.rxPush ch b) = true) :
    h[ch.toNat].exchange = .awaitingResponse ∧
      h[ch.toNat].arrived = b :: (hostIssued h (.rxPush ch b) 0#4)[ch.toNat].arrived := by
  have hx : h[ch.toNat].exchange = .awaitingResponse ∧ h[ch.toNat].arrived.head? = some b := by
    simp only [hostMayIssue, exchangeLets, onHostChannel_pos hc, mayPush, Bool.and_eq_true, beq_iff_eq] at hi
    exact hi.2
  refine ⟨hx.1, ?_⟩
  obtain ⟨rest, hr⟩ := List.head?_eq_some_iff.mp hx.2
  simp [hostIssued, updateHost_pos hc, hr]

/-- R239, R276: DECODE comes after a delivery, and after one RX_PUSH for every byte of it. -/
theorem hostMayIssue_decode {ch : Byte} (hc : ch.toNat < Config.nch) (hi : hostMayIssue h s (.decode ch) = true) :
    h[ch.toNat].exchange = .awaitingResponse ∧ h[ch.toNat].arrived = [] ∧
      0 < deliveredCount h s ⟨ch.toNat, hc⟩ := by
  simp only [hostMayIssue, exchangeLets, onHostChannel_pos hc, mayDecode, Bool.and_eq_true, beq_iff_eq,
    List.isEmpty_iff, bne_iff_ne] at hi
  refine ⟨hi.2.1.1, hi.2.1.2, ?_⟩
  have : (portRxLen s ⟨ch.toNat, hc⟩).toNat ≠ 0 := fun h0 => hi.2.2 (BitVec.eq_of_toNat_eq h0)
  simp only [deliveredCount]
  omega

/-- R230, R271, R274: an exchange starts from idle, prepared by ENCODE and RX_CLEAR, on a valid frame and an empty buffer,
and uses its preparation up. -/
theorem hostStart_some {expectReply : Bool} (hs : hostStart expectReply h s c = some k) :
    h[c].exchange = .idle ∧ h[c].prepared = .cleared ∧ portTxValid s c = true ∧ portRxLen s c = 0#8 ∧
      k[c].exchange = .sending ∧ k[c].prepared = .nothing := by
  unfold hostStart at hs
  split at hs <;> rename_i hm
  · cases hx : h[c].exchange <;> simp only [hx, exchangeNext, Option.map_some, Option.map_none, reduceCtorEq,
      Option.some.injEq] at hs
    simp only [hostMayTransmit, Bool.and_eq_true, beq_iff_eq] at hm
    subst hs
    exact ⟨rfl, hm.1.1, hm.1.2, hm.2, by simp [HostChannel.moved]⟩
  · cases hs

/-- An event other than a start and a DECODE's answer moves the exchange as the contract says, and nothing else of the
view but the bytes left to push; a timeout comes only while fewer than 10 bytes have been delivered. -/
theorem hostEvent_some {e : ExchangeEvent} (hs : hostEvent h s c e = some k) :
    e ≠ .start ∧ (∀ code, e ≠ .decodeAnswered code) ∧ (e = .responseTimedOut → deliveredCount h s c < 10) ∧
      ∃ x, exchangeNext h[c].expectReply h[c].exchange e = some x ∧ k = h.set c (h[c].moved x) := by
  cases e <;> simp only [hostEvent, Option.ite_none_right_eq_some, Option.map_eq_some_iff, reduceCtorEq] at hs
  case responseTimedOut =>
    obtain ⟨hd, x, hx, rfl⟩ := hs
    exact ⟨by simp, by simp, fun _ => hd, x, hx, rfl⟩
  all_goals
    obtain ⟨x, hx, rfl⟩ := hs
    exact ⟨by simp, by simp, by simp, x, hx, rfl⟩

/-- R235: a response times out only while it is awaited and fewer than 10 bytes have been delivered, and the exchange
then fails for that cause. -/
theorem hostEvent_responseTimedOut (hs : hostEvent h s c .responseTimedOut = some k) :
    h[c].exchange = .awaitingResponse ∧ deliveredCount h s c < 10 ∧
      k[c].exchange = .failed .timeoutError := by
  obtain ⟨-, -, hd, x, hx, rfl⟩ := hostEvent_some hs
  cases hc : h[c].exchange <;> simp only [hc, exchangeNext, reduceCtorEq, Option.some.injEq] at hx
  subst hx
  exact ⟨rfl, hd rfl, by simp [HostChannel.moved]⟩

theorem exchangeNext_ne_validated {r : Bool} {x : ExchangeState} {e : ExchangeEvent}
    (he : ∀ code, e ≠ .decodeAnswered code) : exchangeNext r x e ≠ some .validated := by
  cases e with
  | decodeAnswered code => exact absurd rfl (he code)
  | _ => cases x <;> cases r <;> simp [exchangeNext]

/-- R230: no event but the answer to a DECODE the host issued validates an exchange. -/
theorem hostEvent_not_validated {e : ExchangeEvent} (hs : hostEvent h s c e = some k) :
    k[c].exchange ≠ .validated := by
  obtain ⟨-, he, -, x, hx, rfl⟩ := hostEvent_some hs
  rintro hv
  obtain rfl : x = .validated := by simpa [HostChannel.moved] using hv
  exact exchangeNext_ne_validated he hx

/-- A command the host's duties let through runs as the block's next step, and the host learns the code it answers. -/
theorem systemNext_issue {i : Instr} (hs : systemNext (.issue i) h s = some (k, t)) :
    hostMayIssue h s i = true ∧ step { s with inputs := .command (encode i) :: s.inputs } = .next t ∧
      k = hostIssued h i t.lastErr := by
  simp only [systemNext, blockTakes] at hs
  split at hs <;> rename_i hm
  · split at hs <;> simp only [Option.map_some, Option.map_none, reduceCtorEq, Option.some.injEq,
      Prod.mk.injEq] at hs
    rename_i u hu
    obtain ⟨rfl, rfl⟩ := hs
    exact ⟨hm, hu, rfl⟩
  · cases hs

end Sys2Proof.Machine
end

