-- ==== Sys2Proof/Laws/Exec.lean ====
section
/-! SUPPORT. One inversion lemma per command: if its meaning answers a next state, how it came to it. Every outcome that
is not the command's own effect is a `raise` at `s`, or at `s` after the writes R215 lists. -/

namespace Sys2Proof.Machine

open Host (Outcome)

variable {s t : State}

/-- CONFIGURE latches legal operands, and else raises CONFIGURATION_ERROR with the state invalidated. -/
theorem execConfigure_next {alg : Byte} {hl hw radius rated : F64} {midmask mid0 mid1 mid2 mid3 : Byte}
    (h : execConfigure alg hl hw radius rated midmask mid0 mid1 mid2 mid3 s = .next t) :
    (configValid s.velScale alg hl hw radius rated midmask = true ∧
      ok [] { invalidate s with
        cfg := some (configRegs alg hl hw radius rated mid0 mid1 mid2 mid3), configured := true } = .next t) ∨
    (configValid s.velScale alg hl hw radius rated midmask = false ∧
      raise .configurationError { invalidate s with cfg := none } = .next t) := by
  unfold execConfigure at h
  split at h <;> rename_i hv
  · exact .inl ⟨hv, h⟩
  · exact .inr ⟨by simpa using hv, h⟩

theorem execCsInit_next (h : execCsInit s = .next t) :
    (s.configured = true ∧ ok [0x00#8] { s with csAcc := 0x00#8 } = .next t) ∨
    (s.configured = false ∧ raise .notConfigured s = .next t) :=
  ifConfigured_next h

theorem execCsByte_next {b : Byte} (h : execCsByte b s = .next t) :
    (∃ g, s.configured = true ∧ s.cfg = some g ∧
      ok [checksumStep g.alg s.csAcc b] { s with csAcc := checksumStep g.alg s.csAcc b } = .next t) ∨
    (s.configured = false ∧ raise .notConfigured s = .next t) := by
  rcases ifConfigured_next h with ⟨hc, h⟩ | h
  · obtain ⟨g, hg, h⟩ := withRead_next h
    exact .inl ⟨g, hc, readConfig_ok_iff.mp hg, h⟩
  · exact .inr h

/-- A command on a channel runs on that channel, or raises one of the two errors every such command checks first. -/
theorem onChannel_next {ch : Byte} {rest : Fin Config.nch → Result}
    (h : ifConfigured s (withChannel ch s rest) = .next t) :
    (∃ c : Fin Config.nch, c.val = ch.toNat ∧ s.configured = true ∧ rest c = .next t) ∨
    (s.configured = false ∧ raise .notConfigured s = .next t) ∨
    (Config.nch ≤ ch.toNat ∧ raise .badChannel s = .next t) := by
  rcases ifConfigured_next h with ⟨hc, h⟩ | h
  · rcases withChannel_next h with ⟨c, hn, h⟩ | h
    · exact .inl ⟨c, hn, hc, h⟩
    · exact .inr (.inr h)
  · exact .inr (.inl h)

theorem execEncode_next {ch mid mode accel : Byte} {vel : Half} (h : execEncode ch mid mode vel accel s = .next t) :
    (∃ (c : Fin Config.nch) (g : ConfigRegs), c.val = ch.toNat ∧ s.configured = true ∧ s.cfg = some g ∧
      ok (encodeFrame g.alg mid mode vel accel).toList (latchTx s c (encodeFrame g.alg mid mode vel accel)) =
        .next t) ∨
    (s.configured = false ∧ raise .notConfigured s = .next t) ∨
    (Config.nch ≤ ch.toNat ∧ raise .badChannel s = .next t) := by
  rcases onChannel_next h with ⟨c, hn, hc, h⟩ | h
  · obtain ⟨g, hg, h⟩ := withRead_next h
    exact .inl ⟨c, g, hn, hc, readConfig_ok_iff.mp hg, h⟩
  · exact .inr h

theorem execEncodeWheel_next {ch mode : Byte} (h : execEncodeWheel ch mode s = .next t) :
    (∃ (c : Fin Config.nch) (g : ConfigRegs) (k : KinRegs), c.val = ch.toNat ∧ s.configured = true ∧
      s.cfg = some g ∧ s.ktValid = true ∧ s.kt = some k ∧
      ok (encodeFrame g.alg g.mid[c] mode k.wsp[c] 0x00#8).toList
        (latchTx s c (encodeFrame g.alg g.mid[c] mode k.wsp[c] 0x00#8)) = .next t) ∨
    (s.configured = true ∧ ch.toNat < Config.nch ∧ s.ktValid = false ∧ raise .noSetpoint s = .next t) ∨
    (s.configured = false ∧ raise .notConfigured s = .next t) ∨
    (Config.nch ≤ ch.toNat ∧ raise .badChannel s = .next t) := by
  rcases onChannel_next h with ⟨c, hn, hc, h⟩ | h
  · split at h <;> rename_i hv
    · obtain ⟨g, hg, h⟩ := withRead_next h
      obtain ⟨k, hk, h⟩ := withRead_next h
      exact .inl ⟨c, g, k, hn, hc, readConfig_ok_iff.mp hg, hv, (readSetpoints_ok_iff.mp hk).2, h⟩
    · exact .inr (.inl ⟨hc, hn ▸ c.isLt, by simpa using hv, h⟩)
  · exact .inr (.inr h)

theorem execRxClear_next {ch : Byte} (h : execRxClear ch s = .next t) :
    (∃ c : Fin Config.nch, c.val = ch.toNat ∧ s.configured = true ∧
      ok [] (setChan s c (clearRx (chanOf s c))) = .next t) ∨
    (s.configured = false ∧ raise .notConfigured s = .next t) ∨
    (Config.nch ≤ ch.toNat ∧ raise .badChannel s = .next t) :=
  onChannel_next h

theorem execRxPush_next {ch b : Byte} (h : execRxPush ch b s = .next t) :
    (∃ c : Fin Config.nch, c.val = ch.toNat ∧ s.configured = true ∧
      ok [(pushRx (chanOf s c) b).rxLen] (setChan s c (pushRx (chanOf s c) b)) = .next t) ∨
    (s.configured = false ∧ raise .notConfigured s = .next t) ∨
    (Config.nch ≤ ch.toNat ∧ raise .badChannel s = .next t) :=
  onChannel_next h

theorem execDecode_next {ch : Byte} (h : execDecode ch s = .next t) :
    (∃ (c : Fin Config.nch) (g : ConfigRegs) (f : Frame), c.val = ch.toNat ∧ s.configured = true ∧ s.cfg = some g ∧
      (chanOf s c).rxLen.toNat = 10 ∧ readRxFrame (chanOf s c) = .ok f ∧ frameVerifies g.alg f = true ∧
      ok (telemetryBytes (telemetry f)) (latchTel s c (telemetry f)) = .next t) ∨
    (∃ (c : Fin Config.nch) (e : ErrCode), c.val = ch.toNat ∧ s.configured = true ∧
      (e = .shortRead ∨ e = .malformedLength ∨ e = .checksumMismatch) ∧ raise e (dropTel s c) = .next t) ∨
    (s.configured = false ∧ raise .notConfigured s = .next t) ∨
    (Config.nch ≤ ch.toNat ∧ raise .badChannel s = .next t) := by
  rcases onChannel_next h with ⟨c, hn, hc, h⟩ | h
  · dsimp only at h
    split at h <;> rename_i h1
    · exact .inr (.inl ⟨c, _, hn, hc, .inl rfl, h⟩)
    split at h <;> rename_i h2
    · exact .inr (.inl ⟨c, _, hn, hc, .inr (.inl rfl), h⟩)
    obtain ⟨g, hg, h⟩ := withRead_next h
    obtain ⟨f, hf, h⟩ := withRead_next h
    split at h <;> rename_i hr
    · exact .inr (.inl ⟨c, _, hn, hc, .inr (.inr (checkResponse_error_iff.mp hr).2), h⟩)
    · obtain ⟨hv, rfl⟩ := checkResponse_ok_iff.mp hr
      exact .inl ⟨c, g, f, hn, hc, readConfig_ok_iff.mp hg, by omega, hf, hv, h⟩
  · exact .inr (.inr h)

theorem execSolve_next {vx vy wz : F64} (h : execSolve vx vy wz s = .next t) :
    (∃ g, s.configured = true ∧ s.cfg = some g ∧ allFinite (wheelSpeeds g.rc g.radius vx vy wz) = true ∧
      let r := saturate g.limit (wheelSpeeds g.rc g.radius vx vy wz)
      let wsp := r.1.map (toWire s.velScale)
      ok (solveBytes r.2 wsp) { s with kt := some { wrad := r.1, wsp := wsp }, ktSat := r.2, ktValid := true } =
        .next t) ∨
    (s.configured = true ∧ raise .nonFinite s = .next t) ∨
    (s.configured = false ∧ raise .notConfigured s = .next t) := by
  rcases ifConfigured_next h with ⟨hc, h⟩ | h
  · split at h
    · obtain ⟨g, hg, h⟩ := withRead_next h
      dsimp only at h
      split at h <;> rename_i hw
      · exact .inl ⟨g, hc, readConfig_ok_iff.mp hg, hw, h⟩
      · exact .inr (.inl ⟨hc, h⟩)
    · exact .inr (.inl ⟨hc, h⟩)
  · exact .inr (.inr h)

end Sys2Proof.Machine
end

