-- ==== Sys2Proof/Laws/PerInstr.lean ====
section
/-! SUPPORT. The family of statements made per instruction: `Encoding` says that the encoder writes each command as a
legal command string (30_encoding.md R81, R83). -/

namespace Sys2Proof.Laws

/-- The encoding of `i` is a command string the command map admits. -/
def Encoding.Statement (i : Instr) : Prop := wellFormedCommand (encode i) = true

theorem Encoding.configure (alg : Byte) (hl hw radius rated : F64) (midmask mid0 mid1 mid2 mid3 : Byte) :
    Encoding.Statement (.configure alg hl hw radius rated midmask mid0 mid1 mid2 mid3) := rfl

theorem Encoding.csInit : Encoding.Statement .csInit := rfl

theorem Encoding.csByte (b : Byte) : Encoding.Statement (.csByte b) := rfl

theorem Encoding.encode (ch mid mode : Byte) (vel : Half) (accel : Byte) :
    Encoding.Statement (.encode ch mid mode vel accel) := rfl

theorem Encoding.encodeWheel (ch mode : Byte) : Encoding.Statement (.encodeWheel ch mode) := rfl

theorem Encoding.rxClear (ch : Byte) : Encoding.Statement (.rxClear ch) := rfl

theorem Encoding.rxPush (ch b : Byte) : Encoding.Statement (.rxPush ch b) := rfl

theorem Encoding.decode (ch : Byte) : Encoding.Statement (.decode ch) := rfl

theorem Encoding.solve (vx vy wz : F64) : Encoding.Statement (.solve vx vy wz) := rfl

end Sys2Proof.Laws
end

