-- ==== Sys2Proof/Tests/Slice0.lean ====
section
/-! SUPPORT. The model's own tests: words written out from the command map, one or two steps' results per command from
95_test_vectors.md, the refusals of the well-formedness checks, and for every obligation with hypotheses a named
witness that meets them together. -/

namespace Sys2Proof.Tests

open Sys2Proof Sys2Proof.Machine

/-! ### The well-formedness checks refuse what is ill formed -/

theorem test_wellFormed_refuses_empty : wellFormedCommand [] = false := by decide
theorem test_wellFormed_refuses_unlisted_op : wellFormedCommand [0x99#8] = false := by decide
theorem test_wellFormed_refuses_short : wellFormedCommand [0x11#8] = false := by decide
theorem test_wellFormed_refuses_long : wellFormedCommand [0x32#8, 0x01#8, 0x00#8] = false := by decide
theorem test_wellFormed_accepts : wellFormedCommand [0x32#8, 0x01#8] = true := by decide
theorem test_asm_refuses_large_u8 : asmWellFormed (.csByte 256) = false := by decide
theorem test_asm_refuses_negative_u8 : asmWellFormed (.rxPush 0 (-1)) = false := by decide
theorem test_asm_refuses_large_i16 : asmWellFormed (.encode 0 1 2 32768 none) = false := by decide
theorem test_asm_refuses_small_i16 : asmWellFormed (.encode 0 1 2 (-32769) none) = false := by decide
theorem test_asm_refuses_accel : asmWellFormed (.encode 0 1 2 3 (some 256)) = false := by decide
theorem test_asm_refuses_mid :
    asmWellFormed (.configure .xor .nan .nan .nan .nan #v[some 1, none, some 256, none]) = false := by decide
theorem test_asm_refuses_block_byte : asmWellFormed (.csBlock [1, 300]) = false := by decide
theorem test_asm_refuses_frame_byte : asmWellFormed (.rxFrame 0 [-1]) = false := by decide

/-! ### Decoding: words written out from 30_encoding.md R81 -/

theorem test_decode_configure :
    decode [0x01#8, 0x00#8,
      0x3F#8, 0xB9#8, 0x99#8, 0x99#8, 0x99#8, 0x99#8, 0x99#8, 0x9A#8,
      0x3F#8, 0xC9#8, 0x99#8, 0x99#8, 0x99#8, 0x99#8, 0x99#8, 0x9B#8,
      0x3F#8, 0xA9#8, 0x99#8, 0x99#8, 0x99#8, 0x99#8, 0x99#8, 0x9C#8,
      0x40#8, 0x59#8, 0x00#8, 0x00#8, 0x00#8, 0x00#8, 0x00#8, 0x01#8,
      0x0F#8, 0x01#8, 0x02#8, 0x03#8, 0x04#8] =
    .ok (.configure 0x00#8 0x3FB999999999999A#64 0x3FC999999999999B#64 0x3FA999999999999C#64 0x4059000000000001#64
      0x0F#8 0x01#8 0x02#8 0x03#8 0x04#8) := by decide +kernel
theorem test_decode_csInit : decode [0x10#8] = .ok .csInit := by decide
theorem test_decode_csByte : decode [0x11#8, 0x64#8] = .ok (.csByte 0x64#8) := by decide
theorem test_decode_encode :
    decode [0x20#8, 0x00#8, 0x01#8, 0x64#8, 0x07#8, 0xD0#8, 0x05#8] =
      .ok (.encode 0x00#8 0x01#8 0x64#8 0x07D0#16 0x05#8) := by decide
theorem test_decode_encodeWheel : decode [0x21#8, 0x03#8, 0x64#8] = .ok (.encodeWheel 0x03#8 0x64#8) := by decide
theorem test_decode_rxClear : decode [0x30#8, 0x02#8] = .ok (.rxClear 0x02#8) := by decide
theorem test_decode_rxPush : decode [0x31#8, 0x00#8, 0x4F#8] = .ok (.rxPush 0x00#8 0x4F#8) := by decide
theorem test_decode_decode : decode [0x32#8, 0x01#8] = .ok (.decode 0x01#8) := by decide
theorem test_decode_solve :
    decode [0x40#8, 0x7F#8, 0xF8#8, 0#8, 0#8, 0#8, 0#8, 0#8, 0#8, 0x80#8, 0#8, 0#8, 0#8, 0#8, 0#8, 0#8, 0#8,
      0x3F#8, 0xE0#8, 0#8, 0#8, 0#8, 0#8, 0#8, 0x01#8] =
      .ok (.solve 0x7FF8000000000000#64 0x8000000000000000#64 0x3FE0000000000001#64) := by decide +kernel
theorem test_decode_names_unknown_op : decode [0x02#8] = .error (.unknownOp 0x02#8) := by decide
theorem test_decode_names_wrong_length : decode [0x10#8, 0x00#8] = .error (.wrongLength 0x10#8 1) := by decide
theorem test_tableWord_rxPush : decodeTableWord 8 0x31 = some (.rxPush 0x00#8 0x00#8) := by decide
theorem test_tableWord_operand_bits : decodeTableWord 24 0x4F0231 = some (.rxPush 0x02#8 0x4F#8) := by decide

/-! ### Checksums (95_test_vectors.md 2.1) -/

theorem test_checksum_xor_frame :
    checksum .xor [0x01#8, 0x64#8, 0x07#8, 0xD0#8, 0#8, 0#8, 0#8, 0#8, 0#8] = 0xB2#8 := by decide +kernel
theorem test_checksum_crc8_frame :
    checksum .crc8 [0x01#8, 0x64#8, 0x07#8, 0xD0#8, 0#8, 0#8, 0#8, 0#8, 0#8] = 0x8B#8 := by decide +kernel
theorem test_checksum_crc8_check_value :
    checksum .crc8 [0x31#8, 0x32#8, 0x33#8, 0x34#8, 0x35#8, 0x36#8, 0x37#8, 0x38#8, 0x39#8] = 0xA2#8 := by decide +kernel
theorem test_checksum_empty : checksum .xor [] = 0x00#8 ∧ checksum .crc8 [] = 0x00#8 := by decide +kernel
theorem test_crc8_table_row_8 :
    [0x80#8, 0x8B#8, 0x8F#8, 0xFF#8].map (stepCrc8 0x00#8) = [0x7A#8, 0x90#8, 0x54#8, 0xAC#8] := by decide +kernel

/-! ### Arithmetic and the assembler's literals -/

theorem test_literal_tenth : literalValue (.decimal false 1 (-1)) = 0x3FB999999999999A#64 := by decide +kernel
theorem test_literal_minus_three_tenths : literalValue (.decimal true 3 (-1)) = 0xBFD3333333333333#64 := by
  decide +kernel
theorem test_fadd_tenths : fadd 0x3FB999999999999A#64 0x3FB999999999999A#64 = 0x3FC999999999999A#64 := by
  decide +kernel
/-- 95_test_vectors.md: `CFG_LIMIT` of geo0. -/
theorem test_limit_geo0 :
    fdiv (fmul (fmul f64Two Config.pi64) 0x4059000000000000#64) f64Sixty = 0x4024F1A6C638D03F#64 := by decide +kernel
/-- `roundHalfAway` of 0.5, -0.5, 2.5 and 0.49999999999999994 (95_test_vectors.md 2.5). -/
theorem test_roundHalfAway :
    [0x3FE0000000000000#64, 0xBFE0000000000000#64, 0x4004000000000000#64, 0x3FDFFFFFFFFFFFFF#64].map roundHalfAway =
      [1, -1, 3, 0] := by decide +kernel
/-- V-TW-2 and V-TW-10: the tie 0.5 rpm, and the clamp of 1000000.0 rad/s. -/
theorem test_toWire :
    toWire Config.velScaleDefault 0x3FAACEE9F37BEBD5#64 = 1#16 ∧
      toWire Config.velScaleDefault 0x412E848000000000#64 = 32767#16 := by decide +kernel

/-! ### Small states -/

/-- The registers of geo0 (95_test_vectors.md), for an algorithm. -/
def geo0 (alg : Alg) : ConfigRegs where
  alg := alg
  hl := 0x3FB999999999999A#64
  hw := 0x3FB999999999999A#64
  rc := 0x3FC999999999999A#64
  radius := 0x3FA999999999999A#64
  rated := 0x4059000000000000#64
  limit := 0x4024F1A6C638D03F#64
  mid := #v[0x01#8, 0x02#8, 0x03#8, 0x04#8]

/-- A block configured as geo0, nothing else done. -/
def ready (alg : Alg) : State := { State.reset with configured := true, cfg := some (geo0 alg) }

/-- The response body of V-FR-8 with checksum byte `sum`. -/
def response (sum : Byte) : Frame :=
  #v[0x01#8, 0x64#8, 0xFF#8, 0x9C#8, 0x00#8, 0x64#8, 0x1E#8, 0x80#8, 0x00#8, sum]

/-- A configured block that has received a 10-byte response on channel 0. -/
def received (alg : Alg) (f : Frame) : State :=
  { ready alg with
    chans := (ready alg).chans.set 0 { Channel.reset with rxLen := 10#8, rxb := f.map some } }

/-- A configured block with setpoints 100, -43, 0 and 71. -/
def solved (alg : Alg) : State :=
  { ready alg with
    ktValid := true
    kt := some { wrad := #v[0#64, 0#64, 0#64, 0#64], wsp := #v[0x0064#16, 0xFFD5#16, 0x0000#16, 0x0047#16] } }

/-- A state with an input pending. -/
def pending (s : State) (c : List Byte) : State := { s with inputs := [.command c] }

/-- Whether a step's outcome is a next state of which `p` holds. -/
def nextWith (r : Result) (p : State → Bool) : Bool :=
  match r with
  | .next s => p s
  | _ => false

/-- The last response. -/
def answer (s : State) : List Byte := s.responses.getLast?.getD []

/-! ### One step of each command (95_test_vectors.md) -/

/-- V-CF-1. -/
theorem test_configure_geo0 :
    nextWith (exec (.configure 0x00#8 0x3FB999999999999A#64 0x3FB999999999999A#64 0x3FA999999999999A#64
      0x4059000000000000#64 0x0F#8 0x01#8 0x02#8 0x03#8 0x04#8) State.reset)
      (fun s => s.cfg == some (geo0 .xor) && s.configured && answer s == [0x00#8]) = true := by decide +kernel

/-- V-CF-5: radius -0.0. -/
theorem test_configure_negative_zero_radius :
    nextWith (exec (.configure 0x00#8 0x3FB999999999999A#64 0x3FB999999999999A#64 0x8000000000000000#64
      0x4059000000000000#64 0x0F#8 0x01#8 0x02#8 0x03#8 0x04#8) (ready .xor))
      (fun s => s.cfg == none && !s.configured && answer s == [0x01#8]) = true := by decide +kernel

/-- V-CB-1. -/
theorem test_csInit :
    nextWith (exec .csInit { ready .crc8 with csAcc := 0x8B#8 })
      (fun s => s.csAcc == 0x00#8 && answer s == [0x00#8, 0x00#8]) = true := by decide +kernel

/-- V-CB-4. -/
theorem test_csByte_crc8 :
    nextWith (exec (.csByte 0x64#8) { ready .crc8 with csAcc := 0x31#8 })
      (fun s => s.csAcc == 0x8B#8 && answer s == [0x00#8, 0x8B#8]) = true := by decide +kernel

/-- V-CB-6. -/
theorem test_csByte_xor :
    nextWith (exec (.csByte 0x5A#8) { ready .xor with csAcc := 0x5A#8 }) (fun s => s.csAcc == 0x00#8) = true := by
  decide +kernel

/-- V-FR-7. -/
theorem test_encode_accel :
    nextWith (exec (.encode 0x00#8 0x01#8 0x64#8 0x07D0#16 0x05#8) (ready .xor))
      (fun s => portTxf s 0 == .ok #v[0x01#8, 0x64#8, 0x07#8, 0xD0#8, 0x05#8, 0#8, 0#8, 0#8, 0#8, 0xB7#8]) = true := by
  decide +kernel

/-- V-FR-23. -/
theorem test_encodeWheel_back_left :
    nextWith (exec (.encodeWheel 0x03#8 0x64#8) (solved .crc8))
      (fun s => answer s == [0#8, 0x04#8, 0x64#8, 0x00#8, 0x47#8, 0#8, 0#8, 0#8, 0#8, 0#8, 0x88#8]) = true := by
  decide +kernel

/-- V-FR-24 and V-FR-25: NO_SETPOINT, and BAD_CHANNEL before it. -/
theorem test_encodeWheel_errors :
    nextWith (exec (.encodeWheel 0x00#8 0x64#8) (ready .xor)) (fun s => s.lastErr == 9#4) = true ∧
      nextWith (exec (.encodeWheel 0x09#8 0x64#8) (ready .xor)) (fun s => s.lastErr == 8#4) = true := by
  decide +kernel

/-- V-FR-18. -/
theorem test_rxClear :
    nextWith (exec (.rxClear 0x00#8) (received .xor (response 0xFC#8)))
      (fun s => portRxLen s 0 == 0#8 && portRxb s 0 0 == .error .noRxByte) = true := by decide +kernel

/-- R156: an eleventh byte is counted and dropped. -/
theorem test_rxPush_eleventh :
    nextWith (exec (.rxPush 0x00#8 0x4F#8) (received .xor (response 0xFC#8)))
      (fun s => answer s == [0x00#8, 0x0B#8] && portRxb s 0 9 == .ok 0xFC#8) = true := by decide +kernel

/-- V-FR-8. -/
theorem test_decode_telemetry :
    nextWith (exec (.decode 0x00#8) (received .xor (response 0xFC#8)))
      (fun s => answer s ==
        [0#8, 0x01#8, 0x64#8, 0xFF#8, 0x9C#8, 0x00#8, 0x64#8, 0x1E#8, 0x00#8, 0xB4#8, 0x00#8]) = true := by
  decide +kernel

/-- V-FR-12. -/
theorem test_decode_mismatch :
    nextWith (exec (.decode 0x00#8) (received .xor (response 0xFD#8)))
      (fun s => answer s == [0x02#8] && portTel s 0 == .error .noTelemetry) = true := by decide +kernel

/-- V-KT-7: rounding in the unscaled path. -/
theorem test_solve_unscaled :
    nextWith (exec (.solve 0x3FB999999999999A#64 0x3FA999999999999A#64 0x3FE0000000000000#64) (ready .xor))
      (fun s => portWrad s 2 == .ok 0x3FF0000000000001#64 &&
        answer s == [0#8, 0#8, 0xFF#8, 0xF6#8, 0x00#8, 0x30#8, 0x00#8, 0x0A#8, 0x00#8, 0x1D#8]) = true := by
  decide +kernel

/-- V-KT-10 and V-KT-19: scaled, and an overflowing wheel speed. -/
theorem test_solve_scaled_and_overflow :
    nextWith (exec (.solve 0x3FE0000000000000#64 0x3FE0000000000000#64 0#64) (ready .xor))
      (fun s => answer s == [0#8, 1#8, 0#8, 0#8, 0x00#8, 0x64#8, 0x00#8, 0x64#8, 0#8, 0#8]) = true ∧
      nextWith (exec (.solve 0x7FE1CCF385EBC8A0#64 0xFFE1CCF385EBC8A0#64 0#64) (ready .xor))
        (fun s => answer s == [0x07#8] && s.kt == none) = true := by decide +kernel

/-- V-ER-4: ILLEGAL_OP before NOT_CONFIGURED, through the command port. -/
theorem test_step_illegal :
    nextWith (step (pending State.reset [0x11#8])) (fun s => answer s == [0x06#8] && s.inputs == []) = true := by
  decide +kernel

/-- V-CB-9, as the host's table word. -/
theorem test_step_withFetchWord :
    nextWith (step (State.reset.withFetchWord 8 0x10)) (fun s => answer s == [0x05#8] && s.inputs == []) = true := by
  decide +kernel

/-- R86, R87: the first line of program P1, and the expansion of RX_FRAME. -/
theorem test_assemble :
    assemble (.configure .xor (.decimal false 1 (-1)) (.decimal false 1 (-1)) (.decimal false 5 (-2))
      (.decimal false 100 0) #v[some 1, some 2, some 3, none]) =
      some [.configure 0x00#8 0x3FB999999999999A#64 0x3FB999999999999A#64 0x3FA999999999999A#64 0x4059000000000000#64
        0x07#8 0x01#8 0x02#8 0x03#8 0x00#8] ∧
    assemble (.rxFrame 2 [1, 255]) = some [.rxClear 2#8, .rxPush 2#8 1#8, .rxPush 2#8 0xFF#8] := by decide +kernel

/-- A host whose four exchanges stand at `x`, with `arrived` delivered on channel 0 and nothing elsewhere. -/
def hostAt (x : ExchangeState) (arrived : List Byte) : HostView :=
  (Vector.replicate 4 { HostChannel.initial with exchange := x, expectReply := true }).set 0
    { HostChannel.initial with exchange := x, expectReply := true, arrived := arrived }

/-- R273, R270, R237, R261, R274, R276: commands the host's duties forbid, and ones they allow. -/
theorem test_hostMayIssue :
    let waiting := hostAt .awaitingResponse []
    let full := received .xor (response 0xFC#8)
    hostMayIssue waiting (ready .xor) (.encodeWheel 0#8 0#8) = false ∧
      hostMayIssue (hostAt .sending []) (ready .xor) (.configure 0#8 0#64 0#64 0#64 0#64 0#8 0#8 0#8 0#8 0#8) = false ∧
      hostMayIssue (hostAt .idle [0x01#8]) (ready .xor) (.rxPush 0#8 1#8) = false ∧
      hostMayIssue waiting (ready .xor) (.decode 0#8) = false ∧ hostMayIssue waiting full (.decode 0#8) = true ∧
      hostMayIssue waiting full (.rxClear 0#8) = false ∧ hostMayIssue waiting (ready .xor) (.rxClear 0#8) = true ∧
      hostMayIssue HostView.initial State.reset .csInit = false ∧
      hostMayIssue HostView.initial State.reset (.configure 0#8 0#64 0#64 0#64 0#64 0#8 0#8 0#8 0#8 0#8) = true := by
  decide +kernel

/-- R277, R235: the bytes are pushed in arrival order and DECODE comes after the last; a response of 10 bytes does not
time out, one of 9 does, and a lone answer moves nothing. -/
theorem test_host_arrival_and_timeout :
    let h := hostAt .awaitingResponse [0x01#8, 0x64#8]
    let nine := hostAt .awaitingResponse ((response 0xFC#8).toList.take 9)
    hostMayIssue h (ready .xor) (.rxPush 0#8 0x64#8) = false ∧ hostMayIssue h (ready .xor) (.rxPush 0#8 0x01#8) = true ∧
      hostMayIssue h (ready .xor) (.decode 0#8) = false ∧
      (hostEvent nine (ready .xor) 0 .responseTimedOut).isSome = true ∧
      hostEvent (hostReceives nine 0 0xFC#8) (ready .xor) 0 .responseTimedOut = none ∧
      hostEvent nine (received .xor (response 0xFC#8)) 0 .responseTimedOut = none ∧
      hostEvent h (ready .xor) 0 (.decodeAnswered 0#4) = none := by decide +kernel

/-- R230: the moves of one exchange, from a configured block with no frame; without RX_CLEAR it does not start. R270: no
second ENCODE before the first frame is handed to the transport. -/
theorem test_systemRun_exchange :
    let ask := SystemMove.issue (.encode 0x00#8 0x01#8 0x64#8 0x07D0#16 0x00#8)
    let reply := (response 0xFC#8).toList
    let run (ms : List SystemMove) := systemRun ms HostView.initial (ready .xor)
    let sent := [ask, .issue (.rxClear 0#8), .start 0 true, .event 0 .writeConfirmed]
    (run (sent ++ reply.map (SystemMove.receive 0) ++ reply.map (fun b => .issue (.rxPush 0#8 b)) ++
        [.issue (.decode 0#8)])).map (fun p => (p.1[0].exchange, portTelValid p.2 0)) = some (.validated, true) ∧
      (run (sent ++ [.receive 0 0x01#8, .issue (.rxPush 0#8 0x01#8), .issue (.decode 0#8)])).map
        (fun p => p.1[0].exchange) = some (.failed .shortRead) ∧
      run [ask, .start 0 true] = none ∧ run [ask, ask] = none ∧ run [ask, .issue (.rxClear 0#8), ask] = none ∧
      (run [ask, .issue (.rxClear 0#8), .start 0 false, .event 0 .writeSubmitted, ask]).isSome = true ∧ run (sent ++ [.issue (.decode 0#8)]) = none ∧
      (run (sent ++ [.reset])).map (fun p => (p.1, p.2.configured)) = some (HostView.initial, false) := by
  decide +kernel

/-! ### Witnesses: the hypotheses of each obligation, met together -/

theorem witness_EncodeOfDecodeIsTheString : decode [0x31#8, 0x02#8, 0x4F#8] = .ok (.rxPush 0x02#8 0x4F#8) := by decide

theorem witness_StepRunsTheDecodedCommand :
    (pending (ready .xor) [0x10#8]).inputs = .command [0x10#8] :: [] ∧ decode [0x10#8] = .ok .csInit := by decide

theorem witness_IllegalStringsRaiseIllegalOp :
    (pending (ready .xor) [0x10#8, 0x00#8]).inputs = .command [0x10#8, 0x00#8] :: [] ∧
    (∀ op operands, [0x10#8, 0x00#8] = op :: operands →
      (op.toNat, operands.length + 1) ∉
        [(0x01, 39), (0x10, 1), (0x11, 2), (0x20, 7), (0x21, 3), (0x30, 2), (0x31, 3), (0x32, 2), (0x40, 25)]) := by
  refine ⟨rfl, fun op operands h => ?_⟩
  obtain ⟨rfl, rfl⟩ := List.cons.inj h
  decide

theorem witness_ResetBetweenCommandsRestoresTheResetState :
    ({ solved .xor with inputs := [.reset] } : State).inputs = .reset :: [] := rfl

/-- The legal registers of geo0. -/
theorem geo0_legal (alg : Alg) : ConfigLegal Config.velScaleDefault (geo0 alg) where
  hl_finite := by show isFinite 0x3FB999999999999A#64 = true; decide +kernel
  hw_finite := by show isFinite 0x3FB999999999999A#64 = true; decide +kernel
  radius_finite := by show isFinite 0x3FA999999999999A#64 = true; decide +kernel
  radius_pos := by show fgt 0x3FA999999999999A#64 f64Zero = true; decide +kernel
  rated_finite := by show isFinite 0x4059000000000000#64 = true; decide +kernel
  rated_pos := by show fgt 0x4059000000000000#64 f64Zero = true; decide +kernel
  rated_fits := by
    show fgt (fmul 0x4059000000000000#64 Config.velScaleDefault) f64MaxWire = false; decide +kernel
  rc_sum := by
    show 0x3FC999999999999A#64 = fadd 0x3FB999999999999A#64 0x3FB999999999999A#64; decide +kernel
  rc_finite := by show isFinite 0x3FC999999999999A#64 = true; decide +kernel
  limit_formula := by
    show 0x4024F1A6C638D03F#64 = fdiv (fmul (fmul f64Two Config.pi64) 0x4059000000000000#64) f64Sixty
    decide +kernel
  limit_finite := by show isFinite 0x4024F1A6C638D03F#64 = true; decide +kernel
  limit_pos := by show fgt 0x4024F1A6C638D03F#64 f64Zero = true; decide +kernel

/-- A block that has solved, encoded, received and decoded, with CS_INIT pending. -/
def busy : State :=
  { received .xor (response 0xFC#8) with
    ktValid := true
    kt := some { wrad := #v[0#64, 0#64, 0#64, 0#64], wsp := #v[0#16, 0#16, 0#16, 0#16] }
    chans := (received .xor (response 0xFC#8)).chans.set 0
      { txf := some #v[0#8, 0#8, 0#8, 0#8, 0#8, 0#8, 0#8, 0#8, 0#8, 0#8]
        txValid := true
        rxb := (response 0xFC#8).map some
        rxLen := 10#8
        telValid := true
        tel := some (telemetry (response 0xFC#8)) }
    inputs := [.command [0x10#8]] }

theorem busy_inv : Inv busy where
  config_value := rfl
  config_legal := by
    intro c h
    obtain rfl : geo0 .xor = c := by simpa [busy, received, ready] using h
    exact geo0_legal .xor
  kt_configured := fun _ => rfl
  kt_value := fun _ => ⟨_, rfl, by decide +kernel⟩
  kt_sat := fun h => by simp [busy, received, ready, State.reset] at h
  tx_verifies := by
    intro c h
    fin_cases c
    · exact ⟨geo0 .xor, _, rfl, rfl, by decide +kernel⟩
    all_goals exact absurd h (by decide +kernel)
  rx_value := by decide +kernel
  tel_decoded := by
    intro c h
    fin_cases c
    · exact ⟨geo0 .xor, response 0xFC#8, rfl, by decide +kernel, rfl⟩
    all_goals exact absurd h (by decide +kernel)
  err_code := by decide

theorem busy_speeds_finite : WheelSpeedsFinite busy := by
  intro _ k hk
  obtain rfl : (⟨#v[0#64, 0#64, 0#64, 0#64], #v[0#16, 0#16, 0#16, 0#16]⟩ : KinRegs) = k := by
    simpa [busy] using hk
  decide +kernel

theorem witness_EveryStepKeepsTheInvariant : Inv busy ∧ ∃ t, step busy = .next t := ⟨busy_inv, _, rfl⟩

theorem witness_NoStepStopsFromAnInvariantState : Inv busy := busy_inv

theorem witness_StoredWheelSpeedsStayFinite : Inv busy ∧ WheelSpeedsFinite busy ∧ busy.ktValid = true ∧
    ∃ t, step busy = .next t := ⟨busy_inv, busy_speeds_finite, rfl, _, rfl⟩

/-- The run of V-CF-1, ENCODE and the reception of V-FR-8 from reset: both ports readable at its end. -/
theorem witness_ReadableFramesAndTelemetryAreVerified :
    nextWith (Host.Core.run core 14 { State.reset with
        inputs := asInputs ([.configure 0x00#8 0x3FB999999999999A#64 0x3FB999999999999A#64 0x3FA999999999999A#64
          0x4059000000000000#64 0x0F#8 0x01#8 0x02#8 0x03#8 0x04#8, .encode 0x00#8 0x01#8 0x64#8 0x07D0#16 0x00#8,
          .rxClear 0x00#8] ++ ((response 0xFC#8).toList.map fun b => .rxPush 0x00#8 b) ++ [.decode 0x00#8]) })
      (fun t => portTxf t 0 == .ok #v[0x01#8, 0x64#8, 0x07#8, 0xD0#8, 0#8, 0#8, 0#8, 0#8, 0#8, 0xB2#8] &&
        portTel t 0 == .ok (telemetry (response 0xFC#8))) = true := by decide +kernel

/-- A DECODE pending on a buffer that verifies: telemetry is not readable before it and is after it. -/
theorem witness_ReadableFramesAndTelemetryAreVerified_step :
    let s := pending (received .xor (response 0xFC#8)) [0x32#8, 0x00#8]
    nextWith (step s) (fun t => portTel t 0 == .ok (telemetry (response 0xFC#8))) = true ∧
      portTel s 0 ≠ .ok (telemetry (response 0xFC#8)) := by decide +kernel

theorem witness_PortsFaultWhileInvalid :
    State.reset.chans[0].txValid = false ∧ State.reset.chans[0].telValid = false ∧ State.reset.ktValid = false ∧
      (received .xor (response 0xFC#8)).chans[1].rxLen.toNat ≤ (0 : Fin 10).val ∧ State.reset.cfg = none := by
  decide +kernel

theorem witness_ReadsWithoutValueAreFaults_config :
    ({ received .xor (response 0xFC#8) with cfg := none, ktValid := true } : State).configured = true ∧
      ({ received .xor (response 0xFC#8) with cfg := none, ktValid := true } : State).chans[0].rxLen = 10#8 ∧
      isFinite 0#64 = true ∧ (0x00#8).toNat < 4 := by decide +kernel

theorem witness_ReadsWithoutValueAreFaults_setpoint :
    ({ ready .xor with ktValid := true } : State).configured = true ∧
      ({ ready .xor with ktValid := true } : State).cfg ≠ none ∧
      ({ ready .xor with ktValid := true } : State).kt = none := by decide +kernel

theorem witness_ReadsWithoutValueAreFaults_byte :
    (setChan (ready .xor) 3 { Channel.reset with rxLen := 10#8 }).cfg ≠ none ∧
      (setChan (ready .xor) 3 { Channel.reset with rxLen := 10#8 }).chans[3].rxLen = 10#8 ∧
      ∃ i : Fin 10, (setChan (ready .xor) 3 { Channel.reset with rxLen := 10#8 }).chans[3].rxb[i] = none := by
  decide +kernel

theorem witness_UnconfiguredBlockRunsOnlyConfigure :
    (pending State.reset [0x32#8, 0x07#8]).inputs = .command [0x32#8, 0x07#8] :: [] ∧
      decode [0x32#8, 0x07#8] = .ok (.decode 0x07#8) ∧ (pending State.reset [0x32#8, 0x07#8]).configured = false ∧
      (∀ alg hl hw radius rated midmask mid0 mid1 mid2 mid3,
        Instr.decode 0x07#8 ≠ .configure alg hl hw radius rated midmask mid0 mid1 mid2 mid3) :=
  ⟨rfl, by decide, rfl, by simp⟩

theorem witness_BadChannelIsRaisedFirst :
    (ready .xor).configured = true ∧ channelOperand (.encodeWheel 0x04#8 0x64#8) = some 0x04#8 ∧
      4 ≤ (0x04#8).toNat := by decide

/-- A command of each kind that raises an error. -/
theorem witness_ErrorsWriteNothingElse :
    nextWith (exec (.decode 0x01#8) (ready .xor)) (fun t => t.lastErr != 0#4) = true ∧
      nextWith (exec (.decode 0x07#8) (ready .xor)) (fun t => t.lastErr == 8#4) = true ∧
      nextWith (exec (.configure 0x02#8 0#64 0#64 0#64 0#64 0#8 0#8 0#8 0#8 0#8) (ready .xor))
        (fun t => t.lastErr != 0#4) = true ∧
      nextWith (exec (.solve 0x7FF0000000000000#64 0#64 0#64) (solved .xor)) (fun t => t.lastErr != 0#4) = true := by
  decide +kernel

theorem witness_EveryCommandReturnsOneResponse :
    nextWith (exec (.solve 0#64 0#64 0#64) (ready .xor)) (fun t => t.lastErr == 0#4) = true ∧
      nextWith (exec (.decode 0#8) (ready .xor)) (fun t => t.lastErr != 0#4) = true := by decide +kernel

theorem witness_OnlyTheListedCommandsWriteARegister :
    nextWith (exec (.rxPush 0x01#8 0x22#8) (solved .xor)) (fun _ => true) = true := by decide +kernel

theorem witness_CommandsLeaveOtherChannelsAlone :
    nextWith (exec (.rxPush 0x01#8 0x22#8) (ready .xor)) (fun _ => true) = true ∧
      isConfigure (.rxPush 0x01#8 0x22#8) = false ∧
      channelOperand (.rxPush 0x01#8 0x22#8) ≠ some (BitVec.ofNat 8 (2 : Fin 4).val) := by decide +kernel

theorem witness_OtherChannelsContentsAreInvisible :
    nextWith (exec .csInit (ready .xor)) (fun _ => true) = true ∧ isConfigure .csInit = false ∧
      channelOperand .csInit ≠ some (BitVec.ofNat 8 (0 : Fin 4).val) := by decide +kernel

theorem witness_CsInitClearsTheAccumulator : ({ ready .crc8 with csAcc := 0x8B#8 } : State).configured = true := rfl

theorem witness_CsByteFoldsOneByte : (ready .crc8).configured = true ∧ (ready .crc8).cfg = some (geo0 .crc8) :=
  ⟨rfl, rfl⟩

theorem witness_StreamedBytesGiveTheChecksum :
    (ready .crc8).configured = true ∧ (ready .crc8).cfg = some (geo0 .crc8) ∧
      ({ ready .crc8 with inputs := asInputs [.csInit, .csByte 0x01#8, .csByte 0x64#8] } : State).inputs =
        asInputs (.csInit :: [0x01#8, 0x64#8].map fun b => .csByte b) ++ [] := ⟨rfl, rfl, rfl⟩

theorem witness_XorIgnoresOrderAndCrc8DoesNot : [0x01#8, 0x02#8].Perm [0x02#8, 0x01#8] := by decide

theorem witness_ChecksumsAreLinear : [0x01#8, 0x02#8].length = [0xFF#8, 0x00#8].length := rfl

theorem witness_SingleByteErrorsAreDetected :
    frameVerifies .xor (response 0xFC#8) = true ∧ frameVerifies .crc8 (response 0x39#8) = true ∧
      0x05#8 ≠ (response 0x39#8)[(0 : Fin 10)] ∧ 0x05#8 ≠ (response 0x39#8)[(9 : Fin 10)] := by decide +kernel

theorem witness_XorMissesCancellingErrors :
    frameVerifies .xor (response 0xFC#8) = true ∧ (2 : Fin 10) ≠ 9 := by decide +kernel

theorem witness_EncodeBuildsTheRequestFrame :
    (ready .xor).configured = true ∧ (ready .xor).cfg = some (geo0 .xor) ∧ (0x03#8).toNat < 4 := by decide +kernel

theorem witness_EncodeWheelSendsTheSetpoint :
    (solved .crc8).configured = true ∧ (solved .crc8).cfg = some (geo0 .crc8) ∧ (solved .crc8).ktValid = true ∧
      (solved .crc8).kt ≠ none ∧ (0x03#8).toNat < 4 := by decide +kernel

theorem witness_EncodeWheelNeedsASetpoint :
    (ready .xor).configured = true ∧ (0x03#8).toNat < 4 ∧ (ready .xor).ktValid = false := by decide +kernel

theorem witness_RxClearEmptiesTheBuffer :
    (received .xor (response 0xFC#8)).configured = true ∧ (0x00#8).toNat < 4 := by decide +kernel

/-- A count of 9, of 10, of 254 and of 255: the boundaries of the three clauses. -/
theorem witness_RxPushAppendsOneByte :
    (∀ n ∈ [0#8, 9#8, 10#8, 254#8, 255#8],
      (setChan (ready .xor) 0 { Channel.reset with rxLen := n }).configured = true ∧
        (setChan (ready .xor) 0 { Channel.reset with rxLen := n }).chans[0].rxLen = n) ∧
      (9#8).toNat < 10 ∧ 10 ≤ (10#8).toNat ∧ (254#8).toNat < 255 ∧ (255#8).toNat = 255 := by decide +kernel

/-- A count of 9 and of 11. -/
theorem witness_DecodeRejectsEveryOtherLength :
    (setChan (ready .xor) 0 { Channel.reset with rxLen := 9#8 }).chans[0].rxLen.toNat < 10 ∧
      10 < (setChan (ready .xor) 0 { Channel.reset with rxLen := 11#8 }).chans[0].rxLen.toNat ∧
      (ready .xor).configured = true := by decide +kernel

theorem witness_DecodeRejectsABadChecksum :
    (received .xor (response 0xFD#8)).configured = true ∧ (received .xor (response 0xFD#8)).cfg = some (geo0 .xor) ∧
      (received .xor (response 0xFD#8)).chans[0].rxLen = 10#8 ∧
      (received .xor (response 0xFD#8)).chans[0].rxb = (response 0xFD#8).map some ∧
      checksum .xor [0x01#8, 0x64#8, 0xFF#8, 0x9C#8, 0x00#8, 0x64#8, 0x1E#8, 0x80#8, 0x00#8] ≠
        (response 0xFD#8)[9] := by decide +kernel

theorem witness_DecodeLatchesTelemetry :
    (received .crc8 (response 0x39#8)).configured = true ∧ (received .crc8 (response 0x39#8)).cfg = some (geo0 .crc8) ∧
      (received .crc8 (response 0x39#8)).chans[0].rxLen = 10#8 ∧
      (received .crc8 (response 0x39#8)).chans[0].rxb = (response 0x39#8).map some ∧
      checksum .crc8 [0x01#8, 0x64#8, 0xFF#8, 0x9C#8, 0x00#8, 0x64#8, 0x1E#8, 0x80#8, 0x00#8] =
        (response 0x39#8)[9] := by decide +kernel

theorem witness_ReceivedBytesDecodeAsTheSequence :
    (ready .xor).configured = true ∧ (ready .xor).cfg = some (geo0 .xor) ∧ (0x02#8).toNat < 4 ∧
      ({ ready .xor with
          inputs := asInputs ([.rxClear 0x02#8] ++ ((response 0xFC#8).toList.map fun b => .rxPush 0x02#8 b) ++
            [.decode 0x02#8]) } : State).inputs =
        asInputs ([.rxClear 0x02#8] ++ ((response 0xFC#8).toList.map fun b => .rxPush 0x02#8 b) ++
          [.decode 0x02#8]) ++ [] := ⟨rfl, rfl, by decide, by simp⟩

theorem witness_DecodeIsRepeatable :
    nextWith (exec (.decode 0x00#8) (received .xor (response 0xFC#8))) (fun t => t.lastErr == 0#4) = true ∧
      nextWith (exec (.decode 0x00#8) (received .xor (response 0xFD#8))) (fun t => t.lastErr == 2#4) = true := by
  decide +kernel

theorem witness_CorruptedResponsesNeverDecode :
    frameVerifies .crc8 (response 0x39#8) = true ∧ 0x38#8 ≠ (response 0x39#8)[(9 : Fin 10)] ∧ 9 < 10 ∧
      [0x00#8] ≠ [] := by decide +kernel

theorem witness_PositionStaysInRange : 0x7F#8 < 0x80#8 := by decide

/-- V-CF-11: the greatest integer rated speed, with a mask whose reserved bits are set. -/
theorem witness_ConfigureLatchesLegalOperands :
    (0x01#8).toNat ≤ 1 ∧ isFinite 0x3FB999999999999A#64 = true ∧ isFinite 0x3FA999999999999A#64 = true ∧
      fgt 0x3FA999999999999A#64 0#64 = true ∧ isFinite 0x40DFFFC000000000#64 = true ∧
      fgt 0x40DFFFC000000000#64 0#64 = true ∧
      fgt (fmul 0x40DFFFC000000000#64 State.reset.velScale) 0x40DFFFC000000000#64 = false ∧
      0xFF#8 &&& 0x0F#8 = 0x0F#8 ∧ isFinite (fadd 0x3FB999999999999A#64 0x3FB999999999999A#64) = true ∧
      isFinite (fdiv (fmul (fmul 0x4000000000000000#64 Config.pi64) 0x40DFFFC000000000#64) 0x404E000000000000#64) =
        true ∧
      fgt (fdiv (fmul (fmul 0x4000000000000000#64 Config.pi64) 0x40DFFFC000000000#64) 0x404E000000000000#64) 0#64 =
        true := by decide +kernel

/-- Each cause by itself at a boundary: radius 0, rated 0, mask 0x07, alg 2, an infinite half-length, rated 32768, a
half-length sum that overflows, and the least subnormal rated speed (V-CF-4, 7, 14, 13, 17, 10, 18, 12). -/
theorem witness_ConfigureRejectsEachCause :
    fgt 0#64 0#64 = false ∧ (0x07#8).getLsbD (3 : Fin 4).val = false ∧ 2 ≤ (0x02#8).toNat ∧
      isFinite 0x7FF0000000000000#64 = false ∧
      fgt (fmul 0x40E0000000000000#64 State.reset.velScale) 0x40DFFFC000000000#64 = true ∧
      isFinite (fadd 0x7FEE42D130773B76#64 0x7FEE42D130773B76#64) = false ∧
      fgt (fdiv (fmul (fmul 0x4000000000000000#64 Config.pi64) 0x0000000000000001#64) 0x404E000000000000#64) 0#64 =
        false := by decide +kernel

/-- Finite operands with finite wheel speeds, unscaled (V-KT-3) and scaled (V-KT-11). -/
theorem witness_SolveWritesTheSetpoints :
    (ready .xor).configured = true ∧ (ready .xor).cfg = some (geo0 .xor) ∧
      isFinite 0x3FB999999999999A#64 = true ∧ isFinite 0#64 = true ∧
      allFinite (wheelSpeeds (geo0 .xor).rc (geo0 .xor).radius 0x3FB999999999999A#64 0#64 0#64) = true ∧
      fgt (maxAbs (wheelSpeeds (geo0 .xor).rc (geo0 .xor).radius 0x3FB999999999999A#64 0#64 0#64)) (geo0 .xor).limit =
        false ∧
      allFinite (wheelSpeeds (geo0 .xor).rc (geo0 .xor).radius 0x3FF0000000000000#64 0#64 0#64) = true ∧
      fgt (maxAbs (wheelSpeeds (geo0 .xor).rc (geo0 .xor).radius 0x3FF0000000000000#64 0#64 0#64)) (geo0 .xor).limit =
        true := by decide +kernel

/-- A NaN operand (V-KT-17), and an overflowing wheel speed (V-KT-19). -/
theorem witness_SolveRejectsNonFiniteValues :
    (ready .xor).configured = true ∧ (ready .xor).cfg = some (geo0 .xor) ∧ isFinite 0x7FF8000000000000#64 = false ∧
      isFinite (wheelSpeeds (geo0 .xor).rc (geo0 .xor).radius 0x7FE1CCF385EBC8A0#64 0xFFE1CCF385EBC8A0#64
        0#64)[(0 : Fin 4)] = false := by decide +kernel

/-- V-KT-2: negative zeros. -/
theorem witness_ZeroVelocityGivesZeroSetpoints :
    (ready .xor).configured = true ∧ (ready .xor).cfg = some (geo0 .xor) ∧
      ConfigLegal (ready .xor).velScale (geo0 .xor) ∧ isFinite (ready .xor).velScale = true ∧
      isZero 0x8000000000000000#64 = true :=
  ⟨rfl, rfl, geo0_legal .xor, by decide +kernel, by decide +kernel⟩

theorem witness_ScaledSpeedsStayFinite :
    isFinite 0x4024F1A6C638D03F#64 = true ∧ fgt 0x4024F1A6C638D03F#64 0#64 = true ∧
      (∀ i : Fin 4, isFinite (#v[0x4034000000000000#64, 0#64, 0#64, 0#64] : Vector F64 4)[i] = true) ∧
      fgt (maxAbs #v[0x4034000000000000#64, 0#64, 0#64, 0#64]) 0x4024F1A6C638D03F#64 = true := by decide +kernel

/-- Finite operands, among them the greatest finite value, whose sum with itself overflows. -/
theorem witness_ArithmeticIsCorrectlyRounded :
    isFinite 0x7FEFFFFFFFFFFFFF#64 = true ∧ isFinite 0x0000000000000001#64 = true ∧
      isZero 0x0000000000000001#64 = false ∧ isFinite (fadd 0x7FEFFFFFFFFFFFFF#64 0x7FEFFFFFFFFFFFFF#64) = false := by
  decide +kernel

theorem witness_ComparisonsFollowTheValues :
    isFinite 0x8000000000000000#64 = true ∧ isFinite 0#64 = true ∧ isNaN 0x7FF8000000000000#64 = true ∧
      isNaN 0x7FF0000000000000#64 = false ∧ isInf 0x7FF0000000000000#64 = true ∧
      isNaN 0xFFF0000000000000#64 = false ∧ isInf 0xFFF0000000000000#64 = true := by decide +kernel

/-- An operand, or a pair, for each clause: NaN, both infinities, both zeros, and 1 with -1. -/
theorem witness_SpecialValuesFollowIeee754 :
    isNaN 0x7FF8000000000000#64 = true ∧ isInf 0x7FF0000000000000#64 = true ∧ isInf 0xFFF0000000000000#64 = true ∧
      isZero 0x8000000000000000#64 = true ∧ isZero 0#64 = true ∧ isFinite 0x3FF0000000000000#64 = true ∧
      isZero 0x3FF0000000000000#64 = false ∧ val 0x3FF0000000000000#64 + val 0xBFF0000000000000#64 = 0 ∧
      val 0x3FF0000000000000#64 = val 0x3FF0000000000000#64 ∧
      isNaN (fmul 0x3FF0000000000000#64 0#64) = false ∧ isNaN (fdiv 0#64 0x3FF0000000000000#64) = false := by
  decide +kernel

theorem witness_WireRoundingIsHalfAwayFromZero : isFinite 0xBFE0000000000000#64 = true := by decide +kernel

/-- A limit below the largest magnitude, a ratio with a denominator that is not zero, and a limit at the largest. -/
theorem witness_ExactSaturationKeepsRatios :
    (0 : ℚ) < 1 ∧ (1 : ℚ) < exactMaxAbs #v[2, 0, -4, 1] ∧ (#v[2, 0, -4, 1] : Vector ℚ 4)[(2 : Fin 4)] ≠ 0 ∧
      exactMaxAbs #v[2, 0, -4, 1] ≤ (4 : ℚ) := by decide +kernel

/-- A validated exchange, a failed one that returns to idle, and one that times out. -/
theorem witness_ExchangesEndAsTheContractSays :
    exchangeNext true .awaitingResponse (.decodeAnswered 0#4) = some .validated ∧
      exchangeNext true (.failed .timeoutError) .reported = some .idle ∧
      exchangeNext true .awaitingResponse .responseTimedOut = some (.failed .timeoutError) := by decide +kernel

end Sys2Proof.Tests
end

section
/-! CRC8 as division with remainder over GF(2) (40_checksum.md R103, 00_scope.md R7): a byte is a polynomial of degree
below 8, one turn of the loop multiplies it by x modulo the generator, and so eight turns multiply it by x^8. -/

namespace Sys2Proof.Machine

open Polynomial

/-- The byte as a polynomial over GF(2): bit `i` is the coefficient of x^i. -/
noncomputable def gfByte (b : Byte) : (ZMod 2)[X] :=
  ∑ i : Fin 8, if b.getLsbD i.val then X ^ i.val else 0

/-- The message as a polynomial, first byte at the highest powers. -/
noncomputable def gfMessage (bytes : List Byte) : (ZMod 2)[X] :=
  bytes.foldl (fun p b => p * X ^ 8 + gfByte b) 0

/-- The generator polynomial, x^8+x^5+x^4+1 (R7). -/
noncomputable def gfGenerator : (ZMod 2)[X] := X ^ 8 + X ^ 5 + X ^ 4 + 1

theorem gfGenerator_eq : gfGenerator = X ^ 8 + gfByte Config.crcPoly := by
  simp [gfGenerator, gfByte, Fin.sum_univ_eight, Config.crcPoly, BitVec.getLsbD, Nat.testBit]
  ring

theorem gfGenerator_monic : gfGenerator.Monic := by unfold gfGenerator; monicity!

theorem gfGenerator_degree : gfGenerator.degree = 8 := by unfold gfGenerator; compute_degree!

theorem gfByte_xor (a b : Byte) : gfByte (a ^^^ b) = gfByte a + gfByte b := by
  rw [gfByte, gfByte, gfByte, ← Finset.sum_add_distrib]
  refine Finset.sum_congr rfl fun i _ => ?_
  rw [BitVec.getLsbD_xor]
  cases a.getLsbD i.val <;> cases b.getLsbD i.val <;> simp [CharTwo.add_self_eq_zero]

/-- A byte is its own remainder by the generator. -/
theorem gfByte_modByMonic (b : Byte) : gfByte b %ₘ gfGenerator = gfByte b := by
  rw [modByMonic_eq_self_iff gfGenerator_monic, gfGenerator_degree]
  refine (degree_sum_le _ _).trans_lt ((Finset.sup_lt_iff (by decide)).2 fun i _ => ?_)
  split
  · rw [degree_X_pow]; exact_mod_cast i.isLt
  · rw [degree_zero]; decide

/-- Multiplying a byte by x shifts it left; the bit shifted out is the coefficient of x^8. -/
theorem X_mul_gfByte (b : Byte) : X * gfByte b = gfByte (b <<< 1) + if b.getLsbD 7 then X ^ 8 else 0 := by
  simp only [gfByte, Finset.mul_sum, mul_ite, mul_zero, ← pow_succ']
  rw [Fin.sum_univ_castSucc, Fin.sum_univ_succ (n := 7)]
  have hlow (i : Fin 7) : (b <<< 1).getLsbD (i.val + 1) = b.getLsbD i.val := by
    have hi : i.val + 1 < 8 := by omega
    simp only [BitVec.getLsbD_shiftLeft, hi, Nat.not_lt.2 (Nat.le_add_left 1 i.val), decide_true, decide_false,
      Bool.not_false, Bool.true_and, Nat.add_sub_cancel]
  simp [hlow]

theorem mul_modByMonic_gfGenerator (p q : (ZMod 2)[X]) :
    (p * (q %ₘ gfGenerator)) %ₘ gfGenerator = (p * q) %ₘ gfGenerator := by
  have hq : q %ₘ gfGenerator %ₘ gfGenerator = q %ₘ gfGenerator :=
    (modByMonic_eq_self_iff gfGenerator_monic).2 (degree_modByMonic_lt q gfGenerator_monic)
  rw [mul_modByMonic, hq, ← mul_modByMonic]

/-- One iteration of the loop is a multiplication by x modulo the generator. -/
theorem gfByte_crcShift (b : Byte) : gfByte (crcShift b) = (X * gfByte b) %ₘ gfGenerator := by
  rw [← gfByte_modByMonic (crcShift b), X_mul_gfByte, crcShift]
  split
  · rw [gfByte_xor, add_modByMonic, add_modByMonic, ← add_sub_cancel_right (X ^ 8) (gfByte Config.crcPoly),
      ← gfGenerator_eq, sub_modByMonic, modByMonic_self gfGenerator_monic, zero_sub, CharTwo.neg_eq]
  · rw [add_zero]

theorem gfByte_crcShift_iterate (n : Nat) (b : Byte) :
    gfByte (crcShift^[n] b) = (X ^ n * gfByte b) %ₘ gfGenerator := by
  induction n with
  | zero => simp [gfByte_modByMonic]
  | succ n ih =>
    rw [Function.iterate_succ_apply', gfByte_crcShift, ih, mul_modByMonic_gfGenerator, pow_succ', mul_assoc]

/-- Settles O26, by induction on the message from its last byte: `step_CRC8` adds the byte and multiplies by x^8. -/
theorem crc8IsThePolynomialRemainder : Obligations.Crc8IsThePolynomialRemainder := by
  intro s
  change gfByte (checksum .crc8 s) = (gfMessage s * X ^ 8) %ₘ gfGenerator
  induction s using List.reverseRecOn with
  | nil => simp [checksum, gfMessage, gfByte, Config.checksumInit]
  | append_singleton s b ih =>
    have hsum : checksum .crc8 (s ++ [b]) = stepCrc8 (checksum .crc8 s) b := by simp [checksum, checksumStep]
    have hmsg : gfMessage (s ++ [b]) = gfMessage s * X ^ 8 + gfByte b := by simp [gfMessage]
    rw [hsum, hmsg, stepCrc8, gfByte_crcShift_iterate, gfByte_xor, ih, mul_comm (_ + _) (X ^ 8)]
    simp only [mul_add, add_modByMonic, mul_modByMonic_gfGenerator]

end Sys2Proof.Machine
end

section
/-! Facts about binary64 patterns (00_scope.md R11): a pattern is a sign and bits 62:0, the classes are ranges of
bits 62:0, and the magnitude grows strictly with them. -/

namespace Sys2Proof.Machine

/-- Bits 62:0, the biased exponent and the fraction read as one number. -/
def magBits (x : F64) : Nat := x.toNat % 2 ^ 63

/-- The magnitude that bits 62:0 stand for, in units of 2^-1074, were every exponent field a finite one. -/
def bitsMag (m : Nat) : Nat :=
  if m / 2 ^ 52 = 0 then m % 2 ^ 52 else (2 ^ 52 + m % 2 ^ 52) * 2 ^ (m / 2 ^ 52 - 1)

/-! ### The fields of a pattern -/

theorem magBits_lt (x : F64) : magBits x < 2 ^ 63 := Nat.mod_lt _ (by decide)

theorem expField_eq (x : F64) : expField x = magBits x / 2 ^ 52 := by
  simp only [expField, magBits]; omega

theorem fracField_eq (x : F64) : fracField x = magBits x % 2 ^ 52 := by
  simp only [fracField, magBits]; omega

theorem mag_eq (x : F64) : mag x = bitsMag (magBits x) := by
  simp only [mag, bitsMag, expField_eq, fracField_eq]

theorem val_of_signBit_false {x : F64} (h : signBit x = false) : val x = bitsMag (magBits x) := by
  simp [val, h, mag_eq]

theorem val_of_signBit_true {x : F64} (h : signBit x = true) : val x = -(bitsMag (magBits x) : Int) := by
  simp [val, h, mag_eq]

theorem isFinite_iff {x : F64} : isFinite x = true ↔ magBits x < infMag := by
  have := magBits_lt x
  simp only [isFinite, expField_eq, infMag, bne_iff_ne]; omega

theorem isInf_iff {x : F64} : isInf x = true ↔ magBits x = infMag := by
  have := magBits_lt x
  simp only [isInf, expField_eq, fracField_eq, infMag, Bool.and_eq_true, beq_iff_eq]; omega

theorem isNaN_iff {x : F64} : isNaN x = true ↔ infMag < magBits x := by
  have := magBits_lt x
  simp only [isNaN, expField_eq, fracField_eq, infMag, Bool.and_eq_true, beq_iff_eq, bne_iff_ne]; omega

theorem isZero_iff {x : F64} : isZero x = true ↔ magBits x = 0 := by
  simp only [isZero, expField_eq, fracField_eq, Bool.and_eq_true, beq_iff_eq]; omega

/-! ### The classes exclude one another -/

section Classes

variable {x : F64}

theorem isNaN_eq_false_iff : isNaN x = false ↔ magBits x ≤ infMag := by
  rw [← Bool.not_eq_true, isNaN_iff, Nat.not_lt]

theorem isZero_eq_false_iff : isZero x = false ↔ 0 < magBits x := by
  rw [← Bool.not_eq_true, isZero_iff, Nat.pos_iff_ne_zero]

theorem isNaN_of_isFinite (h : isFinite x = true) : isNaN x = false :=
  isNaN_eq_false_iff.2 (isFinite_iff.1 h).le

theorem isNaN_of_isInf (h : isInf x = true) : isNaN x = false :=
  isNaN_eq_false_iff.2 (isInf_iff.1 h).le

theorem isInf_of_isFinite (h : isFinite x = true) : isInf x = false :=
  Bool.eq_false_iff.2 fun hi => (isFinite_iff.1 h).ne (isInf_iff.1 hi)

theorem isInf_of_isNaN (h : isNaN x = true) : isInf x = false :=
  Bool.eq_false_iff.2 fun hi => (isNaN_iff.1 h).ne' (isInf_iff.1 hi)

theorem isFinite_of_isZero (h : isZero x = true) : isFinite x = true :=
  isFinite_iff.2 (by rw [isZero_iff.1 h]; decide)

theorem isZero_of_isInf (h : isInf x = true) : isZero x = false :=
  isZero_eq_false_iff.2 (by rw [isInf_iff.1 h]; decide)

theorem isFinite_or_isInf_of_not_isNaN (h : isNaN x = false) : isFinite x = true ∨ isInf x = true := by
  rw [isFinite_iff, isInf_iff]; exact (isNaN_eq_false_iff.1 h).lt_or_eq

end Classes

/-! ### Patterns built from a sign and bits 62:0 -/

theorem signBit_eq_decide (x : F64) : signBit x = decide (2 ^ 63 ≤ x.toNat) := BitVec.msb_eq_decide x

theorem toNat_ofSignMag {neg : Bool} {m : Nat} (h : m < 2 ^ 63) :
    (ofSignMag neg m).toNat = (if neg then 2 ^ 63 else 0) + m := by
  rw [ofSignMag, BitVec.toNat_ofNat]; split <;> omega

theorem infMag_lt : infMag < 2 ^ 63 := by decide

theorem signBit_ofSignMag {neg : Bool} {m : Nat} (h : m ≤ infMag) : signBit (ofSignMag neg m) = neg := by
  rw [signBit_eq_decide, toNat_ofSignMag (h.trans_lt infMag_lt)]
  have := infMag_lt
  cases neg <;> simp only [Bool.false_eq_true, if_true, if_false, decide_eq_true_eq, decide_eq_false_iff_not] <;> omega

theorem magBits_ofSignMag {neg : Bool} {m : Nat} (h : m ≤ infMag) : magBits (ofSignMag neg m) = m := by
  rw [magBits, toNat_ofSignMag (h.trans_lt infMag_lt)]
  have := infMag_lt
  split <;> omega

theorem isInf_ofSignMag_infMag (neg : Bool) : isInf (ofSignMag neg infMag) = true :=
  isInf_iff.2 (magBits_ofSignMag le_rfl)

theorem isZero_ofSignMag_zero (neg : Bool) : isZero (ofSignMag neg 0) = true :=
  isZero_iff.2 (magBits_ofSignMag (Nat.zero_le _))

theorem isNaN_quietNaN : isNaN quietNaN = true := by decide

/-! ### The exact operations `fneg` and `fabs` -/

@[simp] theorem signBit_fneg (x : F64) : signBit (fneg x) = !signBit x := by
  rw [signBit, fneg, BitVec.getLsbD_xor, signBit]; exact Bool.xor_true _

@[simp] theorem magBits_fneg (x : F64) : magBits (fneg x) = magBits x := by
  rw [magBits, fneg, BitVec.toNat_xor, Nat.xor_mod_two_pow, magBits]; exact Nat.xor_zero _

@[simp] theorem isNaN_fneg (x : F64) : isNaN (fneg x) = isNaN x := by
  rw [Bool.eq_iff_iff, isNaN_iff, isNaN_iff, magBits_fneg]

@[simp] theorem isInf_fneg (x : F64) : isInf (fneg x) = isInf x := by
  rw [Bool.eq_iff_iff, isInf_iff, isInf_iff, magBits_fneg]

@[simp] theorem isFinite_fneg (x : F64) : isFinite (fneg x) = isFinite x := by
  rw [Bool.eq_iff_iff, isFinite_iff, isFinite_iff, magBits_fneg]

@[simp] theorem val_fneg (x : F64) : val (fneg x) = -val x := by
  simp only [val, signBit_fneg, mag_eq, magBits_fneg]
  cases signBit x <;> simp

@[simp] theorem signBit_fabs (x : F64) : signBit (fabs x) = false := by
  rw [signBit, fabs, BitVec.getLsbD_and]; exact Bool.and_false _

@[simp] theorem magBits_fabs (x : F64) : magBits (fabs x) = magBits x := by
  rw [magBits, fabs, BitVec.toNat_and, show (0x7FFFFFFFFFFFFFFF#64).toNat = 2 ^ 63 - 1 from rfl,
    Nat.and_two_pow_sub_one_eq_mod, Nat.mod_mod, magBits]

theorem val_fabs (x : F64) : val (fabs x) = |val x| := by
  rw [val_of_signBit_false (signBit_fabs x), magBits_fabs]
  cases h : signBit x
  · rw [val_of_signBit_false h, Nat.abs_cast]
  · rw [val_of_signBit_true h, abs_neg, Nat.abs_cast]

/-! ### The magnitude grows with bits 62:0 -/

/-- A significand `q` in the unit `2^k`; `q = 2^53` is the carry into the exponent. -/
theorem bitsMag_scaled {k q : Nat} (hq : q ≤ 2 ^ 53) (hk : k = 0 ∨ 2 ^ 52 ≤ q) :
    bitsMag (k * 2 ^ 52 + q) = q * 2 ^ k := by
  obtain hlow | hmid | rfl : q < 2 ^ 52 ∨ (2 ^ 52 ≤ q ∧ q < 2 ^ 53) ∨ q = 2 ^ 53 := by omega
  · obtain rfl : k = 0 := by omega
    simp only [bitsMag, Nat.zero_mul, Nat.zero_add, Nat.div_eq_of_lt hlow, Nat.mod_eq_of_lt hlow, if_true, pow_zero,
      Nat.mul_one]
  · have hexp : (k * 2 ^ 52 + q) / 2 ^ 52 = k + 1 := by omega
    have hfrac : 2 ^ 52 + (k * 2 ^ 52 + q) % 2 ^ 52 = q := by omega
    simp only [bitsMag, hexp, hfrac, Nat.add_one_ne_zero, if_false, Nat.add_sub_cancel]
  · have hexp : (k * 2 ^ 52 + 2 ^ 53) / 2 ^ 52 = k + 2 := by omega
    have hfrac : (k * 2 ^ 52 + 2 ^ 53) % 2 ^ 52 = 0 := by omega
    simp only [bitsMag, hexp, hfrac, Nat.add_one_ne_zero, if_false]
    rw [show k + 2 - 1 = k + 1 from rfl, pow_succ]; ring

theorem exists_scaled (m : Nat) : ∃ k q, q < 2 ^ 53 ∧ (k = 0 ∨ 2 ^ 52 ≤ q) ∧ m = k * 2 ^ 52 + q := by
  by_cases h : m < 2 ^ 52
  · exact ⟨0, m, by omega, .inl rfl, by omega⟩
  · exact ⟨m / 2 ^ 52 - 1, 2 ^ 52 + m % 2 ^ 52, by omega, .inr (by omega), by omega⟩

theorem bitsMag_strictMono : StrictMono bitsMag := by
  refine strictMono_nat_of_lt_succ fun m => ?_
  obtain ⟨k, q, hq, hk, rfl⟩ := exists_scaled m
  rw [add_assoc, bitsMag_scaled hq.le hk, bitsMag_scaled hq (hk.imp_right (Nat.le_succ_of_le ·))]
  exact Nat.mul_lt_mul_of_pos_right q.lt_succ_self (Nat.two_pow_pos k)

@[simp] theorem bitsMag_zero : bitsMag 0 = 0 := rfl

theorem bitsMag_eq_zero_iff {m : Nat} : bitsMag m = 0 ↔ m = 0 := bitsMag_strictMono.injective.eq_iff (b := 0)

theorem bitsMag_pos_iff {m : Nat} : 0 < bitsMag m ↔ 0 < m := bitsMag_strictMono.lt_iff_lt (a := 0)

theorem val_eq_zero_iff {x : F64} : val x = 0 ↔ magBits x = 0 := by
  cases h : signBit x
  · rw [val_of_signBit_false h, Nat.cast_eq_zero, bitsMag_eq_zero_iff]
  · rw [val_of_signBit_true h, neg_eq_zero, Nat.cast_eq_zero, bitsMag_eq_zero_iff]

end Sys2Proof.Machine
end

section
/-! `fgt`, `fabs` and `fmax4` against the values (00_scope.md R11), the infinities at the ends of the order. -/

namespace Sys2Proof.Machine

/-- The value of a pattern that is not a NaN: in units of 2^-1074, with an infinity below and one above. -/
def extValue (x : F64) : WithBot (WithTop Int) :=
  if isInf x then (if signBit x then ⊥ else ((⊤ : WithTop Int) : WithBot (WithTop Int)))
  else (((val x : Int) : WithTop Int) : WithBot (WithTop Int))

theorem orderKey_of_signBit_false {x : F64} (h : signBit x = false) : orderKey x = magBits x := by
  simp [orderKey, h, magBits]

theorem orderKey_of_signBit_true {x : F64} (h : signBit x = true) : orderKey x = -(magBits x : Int) := by
  simp [orderKey, h, magBits]

/-- Bits 62:0 with the sign order the values. -/
theorem val_lt_val_iff (a b : F64) : val a < val b ↔ orderKey a < orderKey b := by
  have hpos {x : F64} : 0 < bitsMag (magBits x) ↔ 0 < magBits x := bitsMag_pos_iff
  cases ha : signBit a <;> cases hb : signBit b
  case false.false =>
    rw [val_of_signBit_false ha, val_of_signBit_false hb, orderKey_of_signBit_false ha, orderKey_of_signBit_false hb,
      Nat.cast_lt, Nat.cast_lt, bitsMag_strictMono.lt_iff_lt]
  case false.true =>
    rw [val_of_signBit_false ha, val_of_signBit_true hb, orderKey_of_signBit_false ha, orderKey_of_signBit_true hb]
    omega
  case true.false =>
    rw [val_of_signBit_true ha, val_of_signBit_false hb, orderKey_of_signBit_true ha, orderKey_of_signBit_false hb]
    have := hpos (x := a); have := hpos (x := b); omega
  case true.true =>
    rw [val_of_signBit_true ha, val_of_signBit_true hb, orderKey_of_signBit_true ha, orderKey_of_signBit_true hb,
      neg_lt_neg_iff, neg_lt_neg_iff, Nat.cast_lt, Nat.cast_lt, bitsMag_strictMono.lt_iff_lt]

/-- What a pattern that is not a NaN can be: minus infinity, a finite value, or plus infinity, each with the place of
its key in the order. -/
theorem extValue_cases {x : F64} (h : isNaN x = false) :
    (extValue x = ⊥ ∧ orderKey x = -(infMag : Int)) ∨
    (extValue x = ((val x : WithTop Int) : WithBot (WithTop Int)) ∧
      -(infMag : Int) < orderKey x ∧ orderKey x < infMag) ∨
    (extValue x = ((⊤ : WithTop Int) : WithBot (WithTop Int)) ∧ orderKey x = infMag) := by
  obtain hf | hi := isFinite_or_isInf_of_not_isNaN h
  · have hlt := isFinite_iff.1 hf
    refine .inr (.inl ⟨by simp [extValue, isInf_of_isFinite hf], ?_⟩)
    cases hs : signBit x
    · rw [orderKey_of_signBit_false hs]; omega
    · rw [orderKey_of_signBit_true hs]; omega
  · have heq := isInf_iff.1 hi
    cases hs : signBit x
    · exact .inr (.inr ⟨by simp [extValue, hi, hs], by rw [orderKey_of_signBit_false hs, heq]⟩)
    · exact .inl ⟨by simp [extValue, hi, hs], by rw [orderKey_of_signBit_true hs, heq]⟩

theorem fgt_iff {a b : F64} (ha : isNaN a = false) (hb : isNaN b = false) :
    fgt a b = true ↔ orderKey b < orderKey a := by
  simp [fgt, ha, hb]

/-- By the three places of each operand: an infinity is an end of the order, and finite values compare as `val`. -/
theorem fgt_iff_extValue_lt {a b : F64} (ha : isNaN a = false) (hb : isNaN b = false) :
    fgt a b = true ↔ extValue b < extValue a := by
  have hinf : (0 : Int) < infMag := by decide
  rw [fgt_iff ha hb]
  obtain ⟨hva, hka⟩ | ⟨hva, hla, hua⟩ | ⟨hva, hka⟩ := extValue_cases ha <;> rw [hva] <;>
    obtain ⟨hvb, hkb⟩ | ⟨hvb, hlb, hub⟩ | ⟨hvb, hkb⟩ := extValue_cases hb <;> rw [hvb]
  · exact iff_of_false (by omega) not_lt_bot
  · exact iff_of_false (by omega) not_lt_bot
  · exact iff_of_false (by omega) not_lt_bot
  · exact iff_of_true (by omega) (WithBot.bot_lt_coe _)
  · rw [WithBot.coe_lt_coe, WithTop.coe_lt_coe, val_lt_val_iff]
  · exact iff_of_false (by omega) (by rw [WithBot.coe_lt_coe]; exact not_top_lt)
  · exact iff_of_true (by omega) (WithBot.bot_lt_coe _)
  · exact iff_of_true (by omega) (WithBot.coe_lt_coe.2 (WithTop.coe_lt_top _))
  · exact iff_of_false (by omega) (lt_irrefl _)

theorem fmax_eq_ite_extValue {a b : F64} (ha : isNaN a = false) (hb : isNaN b = false) :
    fmax a b = if extValue a < extValue b then b else a := by
  simp only [fmax, fgt_iff_extValue_lt hb ha]

theorem isNaN_fmax {a b : F64} (ha : isNaN a = false) (hb : isNaN b = false) : isNaN (fmax a b) = false := by
  rw [fmax]; split <;> assumption

theorem extValue_fmax {a b : F64} (ha : isNaN a = false) (hb : isNaN b = false) :
    extValue (fmax a b) = max (extValue a) (extValue b) := by
  rw [fmax_eq_ite_extValue ha hb]
  split
  next h => exact (max_eq_right h.le).symm
  next h => exact (max_eq_left (not_lt.1 h)).symm

/-- Settles O55: the order of the values is that of their keys, and `fmax4` folds the larger of two. -/
theorem comparisonsFollowTheValues : Obligations.ComparisonsFollowTheValues := by
  refine ⟨fun a b ha hb => fgt_iff_extValue_lt ha hb, fun a b h => ?_, fun a h => ⟨?_, val_fabs a⟩,
    fun a h => ⟨?_, signBit_fabs a⟩, fun a h => ?_, fun a b c d ha hb hc hd => ?_⟩
  · obtain h | h := h <;> simp [fgt, h]
  · rw [isFinite_iff, magBits_fabs]; exact isFinite_iff.1 h
  · rw [isInf_iff, magBits_fabs]; exact isInf_iff.1 h
  · rw [isNaN_iff, magBits_fabs]; exact isNaN_iff.1 h
  · change extValue (fmax4 a b c d) = max (max (max (extValue a) (extValue b)) (extValue c)) (extValue d)
    have hab := isNaN_fmax ha hb
    rw [fmax4, extValue_fmax (isNaN_fmax hab hc) hd, extValue_fmax hab hc, extValue_fmax ha hb]

end Sys2Proof.Machine
end

section
/-! `roundHalfAway` against exact arithmetic over the rationals (00_scope.md R11, 41_kinematics.md R125). -/

namespace Sys2Proof.Machine

/-- Adding a half and rounding down, in whole numbers. -/
theorem floor_div_add_half (n : Nat) {d : Nat} (hd : 0 < d) :
    ⌊(n : ℚ) / d + 1 / 2⌋ = ((2 * n + d) / (2 * d) : Nat) := by
  have hq : (n : ℚ) / d + 1 / 2 = ((2 * n + d : Nat) : ℚ) / ((2 * d : Nat) : ℚ) := by
    push_cast; field_simp
  rw [hq, Rat.floor_natCast_div_natCast]; rfl

theorem exactRoundHalfAway_natCast_div (n : Nat) {d : Nat} (hd : 0 < d) :
    exactRoundHalfAway ((n : ℚ) / d) = ((2 * n + d) / (2 * d) : Nat) := by
  rw [exactRoundHalfAway, if_pos (by positivity), floor_div_add_half n hd]

theorem exactRoundHalfAway_natCast_div_two_pow (n : Nat) {k l : Nat} (hl : l = k + 1) :
    exactRoundHalfAway ((n : ℚ) / 2 ^ k) = ((2 * n + 2 ^ k) / 2 ^ l : Nat) := by
  rw [hl, pow_succ', ← exactRoundHalfAway_natCast_div n (Nat.two_pow_pos k), Nat.cast_pow, Nat.cast_ofNat]

theorem exactRoundHalfAway_neg (q : ℚ) : exactRoundHalfAway (-q) = -exactRoundHalfAway q := by
  obtain hq | rfl | hq := lt_trichotomy q 0
  · rw [exactRoundHalfAway, exactRoundHalfAway, if_pos (by linarith), if_neg (by linarith), neg_neg]
  · norm_num [exactRoundHalfAway]
  · rw [exactRoundHalfAway, exactRoundHalfAway, if_neg (by linarith), if_pos hq.le, neg_neg]

/-- Settles O56: both signs by the magnitude, since `exactRoundHalfAway` is odd. -/
theorem wireRoundingIsHalfAwayFromZero : Obligations.WireRoundingIsHalfAwayFromZero := by
  intro x hx
  have hmag : exactRoundHalfAway ((mag x : ℚ) / 2 ^ 1074) = ((2 * mag x + 2 ^ 1074) / 2 ^ 1075 : Nat) :=
    exactRoundHalfAway_natCast_div_two_pow (mag x) rfl
  cases hs : signBit x
  · simp only [roundHalfAway, val, hx, hs, if_true, Bool.false_eq_true, if_false, Int.cast_natCast, hmag]
  · simp only [roundHalfAway, val, hx, hs, if_true, Int.cast_neg, Int.cast_natCast, neg_div,
      exactRoundHalfAway_neg, hmag]

end Sys2Proof.Machine
end

section
/-! `roundMag` is the nearest magnitude, ties to even (00_scope.md R11): the exact quotient lies between two adjacent
magnitudes, and the one taken is the nearer, or the even one of two equally near. -/

namespace Sys2Proof.Machine

/-- `roundMag` before the cut at infinity, as if the exponent had no upper bound. -/
def roundMagUncut (n d : Nat) : Nat :=
  let k := Nat.log2 (n / d) - 52
  let unit := d * 2 ^ k
  let q := n / unit
  let r := n % unit
  let q' := if unit < 2 * r ∨ (unit = 2 * r ∧ q % 2 = 1) then q + 1 else q
  k * 2 ^ 52 + q'

theorem roundMag_eq_min (n d : Nat) : roundMag n d = min (roundMagUncut n d) infMag := rfl

theorem roundMag_le_infMag (n d : Nat) : roundMag n d ≤ infMag := min_le_right _ _

theorem roundMag_zero_one : roundMag 0 1 = 0 := by decide

/-- The unit `2^k` that `roundMag` takes leaves a significand of at most 53 bits, and of no fewer unless `k = 0`. -/
theorem significand_bounds (n d : Nat) :
    n / (d * 2 ^ (Nat.log2 (n / d) - 52)) < 2 ^ 53 ∧
      (Nat.log2 (n / d) - 52 = 0 ∨ 2 ^ 52 ≤ n / (d * 2 ^ (Nat.log2 (n / d) - 52))) := by
  have hlt : n / d < 2 ^ (Nat.log2 (n / d) + 1) := Nat.lt_log2_self
  rw [← Nat.div_div_eq_div_mul]
  obtain hk | ⟨k, hk⟩ : Nat.log2 (n / d) - 52 = 0 ∨ ∃ k, Nat.log2 (n / d) = 52 + k ∧ 0 < k := by
    by_cases h : Nat.log2 (n / d) ≤ 52
    · exact .inl (by omega)
    · exact .inr ⟨Nat.log2 (n / d) - 52, by omega, by omega⟩
  · have hmono : 2 ^ (Nat.log2 (n / d) + 1) ≤ 2 ^ 53 := Nat.pow_le_pow_right (by decide) (by omega)
    refine ⟨?_, .inl hk⟩
    rw [hk, pow_zero, Nat.div_one]
    exact hlt.trans_le hmono
  · obtain ⟨hk, hpos⟩ := hk
    have hle : 2 ^ Nat.log2 (n / d) ≤ n / d := Nat.log2_self_le (by rintro h0; rw [h0] at hk; simp at hk; omega)
    rw [hk] at hlt hle ⊢
    rw [Nat.add_sub_cancel_left, Nat.div_lt_iff_lt_mul (Nat.two_pow_pos k), Nat.le_div_iff_mul_le (Nat.two_pow_pos k),
      ← pow_add, ← pow_add]
    exact ⟨by rwa [add_right_comm] at hlt, .inr hle⟩

/-- The quotient `n / d` lies between the magnitudes of adjacent patterns `m` and `m + 1`. `R` is the nearer of the two,
and the even one where `n / d` is their midpoint. -/
structure NearerNeighbour (R m n d : Nat) : Prop where
  le : bitsMag m * d ≤ n
  lt : n < bitsMag (m + 1) * d
  nearer : (R = m ∧ 2 * n ≤ bitsMag m * d + bitsMag (m + 1) * d) ∨
    (R = m + 1 ∧ bitsMag m * d + bitsMag (m + 1) * d ≤ 2 * n)
  even : 2 * n = bitsMag m * d + bitsMag (m + 1) * d → R % 2 = 0

theorem roundMagUncut_nearer (n : Nat) {d : Nat} (hd : 0 < d) : ∃ m, NearerNeighbour (roundMagUncut n d) m n d := by
  obtain ⟨hq, hk⟩ := significand_bounds n d
  unfold roundMagUncut
  generalize Nat.log2 (n / d) - 52 = k at hq hk ⊢
  have hunit : 0 < d * 2 ^ k := Nat.mul_pos hd (Nat.two_pow_pos k)
  have hlow : bitsMag (k * 2 ^ 52 + n / (d * 2 ^ k)) * d = d * 2 ^ k * (n / (d * 2 ^ k)) := by
    rw [bitsMag_scaled hq.le hk]; ring
  have hhigh : bitsMag (k * 2 ^ 52 + n / (d * 2 ^ k) + 1) * d = d * 2 ^ k * (n / (d * 2 ^ k)) + d * 2 ^ k := by
    rw [add_assoc, bitsMag_scaled hq (hk.imp_right (Nat.le_succ_of_le ·)), Nat.succ_eq_add_one]; ring
  have hdiv := Nat.div_add_mod n (d * 2 ^ k)
  have hmod := Nat.mod_lt n hunit
  refine ⟨k * 2 ^ 52 + n / (d * 2 ^ k), ?_, ?_, ?_, ?_⟩
  · omega
  · omega
  · rw [hlow, hhigh]; dsimp only; split <;> omega
  · rw [hlow, hhigh]; dsimp only; split <;> omega

/-- No magnitude is nearer than that of the nearer neighbour, and another that is as near leaves it the even one. -/
theorem NearerNeighbour.nearest {R m n d : Nat} (hd : 0 < d) (h : NearerNeighbour R m n d) (i : Nat) :
    |(bitsMag R * d : Int) - n| ≤ |(bitsMag i * d : Int) - n| ∧
      (bitsMag i ≠ bitsMag R → |(bitsMag i * d : Int) - n| = |(bitsMag R * d : Int) - n| → R % 2 = 0) := by
  obtain ⟨hle, hlt, hnear, heven⟩ := h
  have hmono : Monotone fun j => bitsMag j * d := (bitsMag_strictMono.mul_const hd).monotone
  have hother : bitsMag i ≠ bitsMag R → bitsMag i * d ≠ bitsMag R * d := fun hne he =>
    hne (Nat.eq_of_mul_eq_mul_right hd he)
  have hside : bitsMag i * d ≤ bitsMag m * d ∨ bitsMag (m + 1) * d ≤ bitsMag i * d :=
    (Nat.lt_or_ge m i).symm.imp (fun hi => hmono hi) (fun hi => hmono hi)
  simp only [← Nat.cast_mul, abs_eq_max_neg]
  obtain ⟨rfl, hmid⟩ | ⟨rfl, hmid⟩ := hnear
  · exact ⟨by omega, fun hne heq => by have := hother hne; omega⟩
  · exact ⟨by omega, fun hne heq => by have := hother hne; omega⟩

/-- The two magnitudes at the top of an exponent's range, about their midpoint. -/
theorem bitsMag_top_add (k : Nat) {l : Nat} (hl : l = k + 1) :
    bitsMag (l * 2 ^ 52 + (2 ^ 53 - 1)) + bitsMag (l * 2 ^ 52 + 2 ^ 53) = 2 * ((2 ^ 54 - 1) * 2 ^ k) := by
  rw [bitsMag_scaled (by decide) (.inr (by decide)), bitsMag_scaled le_rfl (.inr (by decide)), hl, pow_succ]
  ring

/-- Twice the midpoint between the greatest finite magnitude and the next power of two. -/
theorem bitsMag_infMag_add : bitsMag (infMag - 1) + bitsMag infMag = 2 * ((2 ^ 54 - 1) * 2 ^ 2044) := by
  have hmax : infMag - 1 = 2045 * 2 ^ 52 + (2 ^ 53 - 1) := rfl
  have hinf : infMag = 2045 * 2 ^ 52 + 2 ^ 53 := rfl
  rw [hmax, hinf, bitsMag_top_add 2044 rfl]

/-- The result is finite below the midpoint between the greatest finite magnitude and the next power of two; at the
midpoint the greatest finite magnitude is the odd one. -/
theorem NearerNeighbour.lt_infMag_iff {R m n d : Nat} (hd : 0 < d) (h : NearerNeighbour R m n d) :
    R < infMag ↔ n < (2 ^ 54 - 1) * 2 ^ 2044 * d := by
  obtain ⟨hle, hlt, hnear, heven⟩ := h
  have hstrict : StrictMono fun j => bitsMag j * d := bitsMag_strictMono.mul_const hd
  have hmid : bitsMag (infMag - 1) * d + bitsMag infMag * d = 2 * ((2 ^ 54 - 1) * 2 ^ 2044 * d) := by
    rw [← add_mul, bitsMag_infMag_add, mul_assoc]
  generalize (2 ^ 54 - 1) * 2 ^ 2044 * d = t at hmid ⊢
  have htop : bitsMag (infMag - 1) * d < bitsMag infMag * d := hstrict (by decide)
  obtain hm | rfl | hm : m + 1 ≤ infMag - 1 ∨ m = infMag - 1 ∨ infMag ≤ m := by omega
  · have hbelow : bitsMag (m + 1) * d ≤ bitsMag (infMag - 1) * d := hstrict.monotone hm
    omega
  · have hodd : (infMag - 1) % 2 = 1 := by decide
    rw [show infMag - 1 + 1 = infMag from rfl] at hnear heven
    omega
  · have habove : bitsMag infMag * d ≤ bitsMag m * d := hstrict.monotone hm
    omega

theorem roundMag_lt_infMag_iff (n : Nat) {d : Nat} (hd : 0 < d) :
    roundMag n d < infMag ↔ n < (2 ^ 54 - 1) * 2 ^ 2044 * d := by
  obtain ⟨m, h⟩ := roundMagUncut_nearer n hd
  rw [roundMag_eq_min, min_lt_iff, or_iff_left (lt_irrefl _), h.lt_infMag_iff hd]

theorem roundMag_nearest {n d : Nat} (hd : 0 < d) (hfin : roundMag n d < infMag) (i : Nat) :
    |(bitsMag (roundMag n d) * d : Int) - n| ≤ |(bitsMag i * d : Int) - n| ∧
      (bitsMag i ≠ bitsMag (roundMag n d) →
        |(bitsMag i * d : Int) - n| = |(bitsMag (roundMag n d) * d : Int) - n| → roundMag n d % 2 = 0) := by
  obtain ⟨m, h⟩ := roundMagUncut_nearer n hd
  have hcut : roundMag n d = roundMagUncut n d := by rw [roundMag_eq_min] at hfin ⊢; omega
  rw [hcut]
  exact h.nearest hd i

end Sys2Proof.Machine
end

section
/-! What `fadd`, `fmul` and `fdiv` answer on each class of operands (00_scope.md R11, log 17). -/

namespace Sys2Proof.Machine

variable {a b : F64}

/-! ### Addition -/

theorem fadd_of_isNaN (h : isNaN a = true ∨ isNaN b = true) : fadd a b = quietNaN := by
  rw [fadd, if_pos (Bool.or_eq_true _ _ ▸ h)]

theorem fadd_isInf_isFinite (ha : isInf a = true) (hb : isFinite b = true) : fadd a b = a := by
  simp [fadd, isNaN_of_isInf ha, isNaN_of_isFinite hb, ha, isInf_of_isFinite hb]

theorem fadd_isFinite_isInf (ha : isFinite a = true) (hb : isInf b = true) : fadd a b = b := by
  simp [fadd, isNaN_of_isFinite ha, isNaN_of_isInf hb, isInf_of_isFinite ha, hb]

theorem fadd_isInf_same (ha : isInf a = true) (hb : isInf b = true) (hs : signBit a = signBit b) : fadd a b = a := by
  simp [fadd, isNaN_of_isInf ha, isNaN_of_isInf hb, ha, hs]

theorem fadd_isInf_opposite (ha : isInf a = true) (hb : isInf b = true) (hs : signBit a ≠ signBit b) :
    fadd a b = quietNaN := by
  simp [fadd, isNaN_of_isInf ha, isNaN_of_isInf hb, ha, hb, hs]

theorem fadd_of_isFinite (ha : isFinite a = true) (hb : isFinite b = true) :
    fadd a b = roundInt (signBit a && signBit b) (val a + val b) := by
  simp [fadd, isNaN_of_isFinite ha, isNaN_of_isFinite hb, isInf_of_isFinite ha, isInf_of_isFinite hb]

theorem roundInt_zero (zeroSign : Bool) : roundInt zeroSign 0 = ofSignMag zeroSign 0 := if_pos rfl

/-- An exact zero rounds to a zero, so `roundInt` differs from `roundMag` in its sign alone. -/
theorem roundInt_eq_ofSignMag (zeroSign : Bool) (z : Int) :
    roundInt zeroSign z = ofSignMag (if z = 0 then zeroSign else decide (z < 0)) (roundMag z.natAbs 1) := by
  rw [roundInt]
  split
  next hz => rw [hz, Int.natAbs_zero, roundMag_zero_one]
  next => rfl

/-! ### Multiplication -/

theorem fmul_comm (a b : F64) : fmul a b = fmul b a := by
  simp only [fmul, Bool.or_comm (isNaN a), Bool.or_comm (isInf a), Bool.or_comm (isZero a), Nat.mul_comm (mag a),
    bne_comm (a := signBit a)]

theorem fmul_of_isNaN (h : isNaN a = true ∨ isNaN b = true) : fmul a b = quietNaN := by
  rw [fmul, if_pos (Bool.or_eq_true _ _ ▸ h)]

theorem fmul_isInf_isZero (ha : isInf a = true) (hb : isZero b = true) : fmul a b = quietNaN := by
  simp [fmul, ha, hb]

theorem fmul_isInf_not_isZero (ha : isInf a = true) (hb : isNaN b = false) (hz : isZero b = false) :
    fmul a b = ofSignMag (signBit a != signBit b) infMag := by
  simp [fmul, isNaN_of_isInf ha, isZero_of_isInf ha, ha, hb, hz]

theorem fmul_of_isFinite (ha : isFinite a = true) (hb : isFinite b = true) :
    fmul a b = ofSignMag (signBit a != signBit b) (roundMag (mag a * mag b) (2 ^ 1074)) := by
  simp only [fmul, isNaN_of_isFinite ha, isNaN_of_isFinite hb, isInf_of_isFinite ha, isInf_of_isFinite hb,
    Bool.or_self, Bool.false_eq_true, if_false]

/-- A product is the quiet NaN, or it has the exclusive-or of the signs. -/
theorem fmul_cases (a b : F64) :
    fmul a b = quietNaN ∨ ∃ m, m ≤ infMag ∧ fmul a b = ofSignMag (signBit a != signBit b) m := by
  rw [fmul]
  split
  · exact .inl rfl
  split
  · split
    · exact .inl rfl
    · exact .inr ⟨_, le_rfl, rfl⟩
  · exact .inr ⟨_, roundMag_le_infMag _ _, rfl⟩

theorem signBit_fmul (h : isNaN (fmul a b) = false) : signBit (fmul a b) = (signBit a != signBit b) := by
  obtain hnan | ⟨m, hm, heq⟩ := fmul_cases a b
  · rw [hnan, isNaN_quietNaN] at h; contradiction
  · rw [heq, signBit_ofSignMag hm]

/-! ### Division -/

theorem fdiv_of_isNaN (h : isNaN a = true ∨ isNaN b = true) : fdiv a b = quietNaN := by
  rw [fdiv, if_pos (Bool.or_eq_true _ _ ▸ h)]

theorem fdiv_isInf_isInf (ha : isInf a = true) (hb : isInf b = true) : fdiv a b = quietNaN := by
  simp [fdiv, ha, hb]

theorem fdiv_isInf_isFinite (ha : isInf a = true) (hb : isFinite b = true) :
    fdiv a b = ofSignMag (signBit a != signBit b) infMag := by
  simp [fdiv, isNaN_of_isInf ha, isNaN_of_isFinite hb, ha, isInf_of_isFinite hb]

theorem fdiv_isFinite_isInf (ha : isFinite a = true) (hb : isInf b = true) :
    fdiv a b = ofSignMag (signBit a != signBit b) 0 := by
  simp [fdiv, isNaN_of_isFinite ha, isNaN_of_isInf hb, isInf_of_isFinite ha, hb]

theorem fdiv_isZero_isZero (ha : isZero a = true) (hb : isZero b = true) : fdiv a b = quietNaN := by
  simp [fdiv, isInf_of_isFinite (isFinite_of_isZero ha), isInf_of_isFinite (isFinite_of_isZero hb), ha, hb]

theorem fdiv_isFinite_isZero (ha : isFinite a = true) (hz : isZero a = false) (hb : isZero b = true) :
    fdiv a b = ofSignMag (signBit a != signBit b) infMag := by
  have hfin := isFinite_of_isZero hb
  simp [fdiv, isNaN_of_isFinite ha, isNaN_of_isFinite hfin, isInf_of_isFinite ha, isInf_of_isFinite hfin, hz, hb]

theorem fdiv_of_isFinite (ha : isFinite a = true) (hb : isFinite b = true) (hz : isZero b = false) :
    fdiv a b = ofSignMag (signBit a != signBit b) (roundMag (mag a * 2 ^ 1074) (mag b)) := by
  simp only [fdiv, isNaN_of_isFinite ha, isNaN_of_isFinite hb, isInf_of_isFinite ha, isInf_of_isFinite hb, hz,
    Bool.or_self, Bool.false_eq_true, if_false]

/-- A quotient is the quiet NaN, or it has the exclusive-or of the signs. -/
theorem fdiv_cases (a b : F64) :
    fdiv a b = quietNaN ∨ ∃ m, m ≤ infMag ∧ fdiv a b = ofSignMag (signBit a != signBit b) m := by
  rw [fdiv]
  split
  · exact .inl rfl
  split
  · split
    · exact .inl rfl
    · exact .inr ⟨_, le_rfl, rfl⟩
  split
  · exact .inr ⟨_, Nat.zero_le _, rfl⟩
  split
  · split
    · exact .inl rfl
    · exact .inr ⟨_, le_rfl, rfl⟩
  · exact .inr ⟨_, roundMag_le_infMag _ _, rfl⟩

theorem signBit_fdiv (h : isNaN (fdiv a b) = false) : signBit (fdiv a b) = (signBit a != signBit b) := by
  obtain hnan | ⟨m, hm, heq⟩ := fdiv_cases a b
  · rw [hnan, isNaN_quietNaN] at h; contradiction
  · rw [heq, signBit_ofSignMag hm]

end Sys2Proof.Machine
end

section
/-! The special values of 00_scope.md R11 (log 17): NaNs, infinities, zero divisors, and the signs of zeros. -/

namespace Sys2Proof.Machine

variable {a b : F64}

theorem arithmetic_of_isNaN (h : isNaN a = true ∨ isNaN b = true) :
    isNaN (fadd a b) = true ∧ isNaN (fsub a b) = true ∧ isNaN (fmul a b) = true ∧ isNaN (fdiv a b) = true := by
  have hsub : isNaN a = true ∨ isNaN (fneg b) = true := by rwa [isNaN_fneg]
  rw [fsub, fadd_of_isNaN h, fadd_of_isNaN hsub, fmul_of_isNaN h, fdiv_of_isNaN h]
  exact ⟨isNaN_quietNaN, isNaN_quietNaN, isNaN_quietNaN, isNaN_quietNaN⟩

theorem sums_isInf_isFinite (ha : isInf a = true) (hb : isFinite b = true) :
    fadd a b = a ∧ fadd b a = a ∧ fsub a b = a ∧ fsub b a = fneg a :=
  ⟨fadd_isInf_isFinite ha hb, fadd_isFinite_isInf hb ha, fadd_isInf_isFinite ha (by rwa [isFinite_fneg]),
    fadd_isFinite_isInf hb (by rwa [isInf_fneg])⟩

theorem sums_isInf_same (ha : isInf a = true) (hb : isInf b = true) (hs : signBit a = signBit b) :
    fadd a b = a ∧ isNaN (fsub a b) = true := by
  have hsub : fsub a b = quietNaN := fadd_isInf_opposite ha (by rwa [isInf_fneg]) (by simp [hs])
  exact ⟨fadd_isInf_same ha hb hs, hsub ▸ isNaN_quietNaN⟩

theorem sums_isInf_opposite (ha : isInf a = true) (hb : isInf b = true) (hs : signBit a ≠ signBit b) :
    isNaN (fadd a b) = true ∧ fsub a b = a := by
  refine ⟨fadd_isInf_opposite ha hb hs ▸ isNaN_quietNaN, fadd_isInf_same ha (by rwa [isInf_fneg]) ?_⟩
  rw [signBit_fneg]; exact Bool.eq_not_of_ne hs

/-- An exact zero sum is a zero, negative only if both operands are. -/
theorem fadd_exact_zero (ha : isFinite a = true) (hb : isFinite b = true) (h : val a + val b = 0) :
    isZero (fadd a b) = true ∧ signBit (fadd a b) = (signBit a && signBit b) := by
  rw [fadd_of_isFinite ha hb, h, roundInt_zero]
  exact ⟨isZero_ofSignMag_zero _, signBit_ofSignMag (Nat.zero_le _)⟩

theorem fsub_exact_zero (ha : isFinite a = true) (hb : isFinite b = true) (h : val a - val b = 0) :
    isZero (fsub a b) = true ∧ signBit (fsub a b) = (signBit a && !signBit b) := by
  rw [← signBit_fneg]
  exact fadd_exact_zero ha (by rwa [isFinite_fneg]) (by rwa [val_fneg, ← sub_eq_add_neg])

theorem fmul_isInf_isZero_isNaN (ha : isInf a = true) (hb : isZero b = true) :
    isNaN (fmul a b) = true ∧ isNaN (fmul b a) = true := by
  rw [fmul_comm b a, fmul_isInf_isZero ha hb]; exact ⟨isNaN_quietNaN, isNaN_quietNaN⟩

theorem fmul_isInf_not_isZero_isInf (ha : isInf a = true) (hz : isZero b = false) (hb : isNaN b = false) :
    isInf (fmul a b) = true ∧ isInf (fmul b a) = true := by
  rw [fmul_comm b a, fmul_isInf_not_isZero ha hb hz]; exact ⟨isInf_ofSignMag_infMag _, isInf_ofSignMag_infMag _⟩

/-- Settles O60, clause by clause from what each operation answers on each class of operands. -/
theorem specialValuesFollowIeee754 : Obligations.SpecialValuesFollowIeee754 := fun _ _ =>
  ⟨arithmetic_of_isNaN,
    sums_isInf_isFinite,
    fun ha hb => ⟨sums_isInf_same ha hb, sums_isInf_opposite ha hb⟩,
    fun ha hb => ⟨fadd_exact_zero ha hb, fsub_exact_zero ha hb⟩,
    fmul_isInf_isZero_isNaN,
    fmul_isInf_not_isZero_isInf,
    fun ha hb => fdiv_isInf_isInf ha hb ▸ isNaN_quietNaN,
    fun ha hb => fdiv_isInf_isFinite ha hb ▸ isInf_ofSignMag_infMag _,
    fun ha hb => fdiv_isFinite_isInf ha hb ▸ isZero_ofSignMag_zero _,
    fun ha hb => fdiv_isZero_isZero ha hb ▸ isNaN_quietNaN,
    fun ha hz hb => fdiv_isFinite_isZero ha hz hb ▸ isInf_ofSignMag_infMag _,
    signBit_fmul,
    signBit_fdiv⟩

end Sys2Proof.Machine
end

section
/-! `fadd`, `fsub`, `fmul` and `fdiv` of finite operands round the exact result correctly (00_scope.md R11). -/

namespace Sys2Proof.Machine

/-- `r` is the correct rounding of `num / den` units of 2^-1074, as R11 has it: finite below the overflow threshold,
then a nearest value and of two the even one, else an infinity; with the exact result's sign. -/
def CorrectlyRounded (r : F64) (num : Int) (den : Nat) : Prop :=
  (isFinite r = true ↔ num.natAbs < (2 ^ 54 - 1) * 2 ^ 2044 * den) ∧
  (isFinite r = true → ∀ y : F64, isFinite y = true →
    |val r * den - num| ≤ |val y * den - num| ∧
    (val y ≠ val r → |val y * den - num| = |val r * den - num| → fracField r % 2 = 0)) ∧
  (isFinite r = false → isInf r = true) ∧
  (num < 0 → signBit r = true) ∧ (0 < num → signBit r = false)

/-- `neg` is the sign of `z`; a zero may have either. -/
structure SignAgrees (neg : Bool) (z : Int) : Prop where
  of_neg : z < 0 → neg = true
  of_pos : 0 < z → neg = false

theorem SignAgrees.mul {p q : Bool} {u v : Int} (hu : SignAgrees p u) (hv : SignAgrees q v) :
    SignAgrees (p != q) (u * v) := by
  constructor
  · intro h
    obtain ⟨hup, hvn⟩ | ⟨hun, hvp⟩ := mul_neg_iff.1 h
    · simp [hu.of_pos hup, hv.of_neg hvn]
    · simp [hu.of_neg hun, hv.of_pos hvp]
  · intro h
    obtain ⟨hup, hvp⟩ | ⟨hun, hvn⟩ := mul_pos_iff.1 h
    · simp [hu.of_pos hup, hv.of_pos hvp]
    · simp [hu.of_neg hun, hv.of_neg hvn]

theorem SignAgrees.sign {p : Bool} {u : Int} (hu : SignAgrees p u) : SignAgrees p u.sign :=
  ⟨fun h => hu.of_neg (Int.sign_neg_iff.1 h), fun h => hu.of_pos (Int.sign_pos_iff.1 h)⟩

theorem SignAgrees.mul_pow_two {p : Bool} {u : Int} (hu : SignAgrees p u) (k : Nat) : SignAgrees p (u * 2 ^ k) := by
  have hpow : SignAgrees false (2 ^ k : Int) := ⟨fun h => absurd h (pow_nonneg (by decide) k).not_gt, fun _ => rfl⟩
  simpa using hu.mul hpow

theorem signAgrees_val (x : F64) : SignAgrees (signBit x) (val x) := by
  cases h : signBit x
  · rw [val_of_signBit_false h]; exact ⟨fun hn => by omega, fun _ => rfl⟩
  · rw [val_of_signBit_true h]; exact ⟨fun _ => rfl, fun hp => by omega⟩

theorem natAbs_val (x : F64) : (val x).natAbs = mag x := by
  cases h : signBit x
  · rw [val_of_signBit_false h, mag_eq, Int.natAbs_natCast]
  · rw [val_of_signBit_true h, mag_eq, Int.natAbs_neg, Int.natAbs_natCast]

/-- A negative value is farther from a quotient that is not negative than zero is. -/
theorem roundMag_nearest_val {n d : Nat} (hd : 0 < d) (hfin : roundMag n d < infMag) (y : F64) :
    |(bitsMag (roundMag n d) * d : Int) - n| ≤ |val y * d - n| ∧
      (val y ≠ bitsMag (roundMag n d) →
        |val y * d - n| = |(bitsMag (roundMag n d) * d : Int) - n| → roundMag n d % 2 = 0) := by
  obtain hneg | hval : val y < 0 ∨ val y = bitsMag (magBits y) := by
    cases h : signBit y
    · exact .inr (val_of_signBit_false h)
    · rw [val_of_signBit_true h]; omega
  · have hzero := (roundMag_nearest hd hfin 0).1
    have hprod : val y * d < 0 := mul_neg_of_neg_of_pos hneg (by exact_mod_cast hd)
    have hfar : |((bitsMag 0 : Nat) * d : Int) - n| < |val y * d - n| := by
      rw [bitsMag_zero, Nat.cast_zero, zero_mul, zero_sub, abs_neg, Nat.abs_cast, abs_of_neg (by omega)]; omega
    exact ⟨hzero.trans hfar.le, fun _ heq => absurd heq (hzero.trans_lt hfar).ne'⟩
  · rw [hval, Ne, Nat.cast_inj]; exact roundMag_nearest hd hfin (magBits y)

/-- The sign of the exact result and `roundMag` of its magnitude round it correctly. -/
theorem correctlyRounded_ofSignMag {neg : Bool} {num : Int} {den : Nat} (hd : 0 < den) (hs : SignAgrees neg num) :
    CorrectlyRounded (ofSignMag neg (roundMag num.natAbs den)) num den := by
  have hbits := magBits_ofSignMag (neg := neg) (roundMag_le_infMag num.natAbs den)
  have hsign := signBit_ofSignMag (neg := neg) (roundMag_le_infMag num.natAbs den)
  generalize ofSignMag neg (roundMag num.natAbs den) = r at hbits hsign
  have hfin : isFinite r = true ↔ roundMag num.natAbs den < infMag := by rw [isFinite_iff, hbits]
  refine ⟨hfin.trans (roundMag_lt_infMag_iff _ hd), fun hr y _ => ?_, fun hr => ?_, ?_, ?_⟩
  · have hfrac : fracField r % 2 = roundMag num.natAbs den % 2 := by rw [fracField_eq, hbits]; omega
    rw [hfrac]
    cases neg with
    | false =>
      have hnonneg : ¬num < 0 := fun h => Bool.false_ne_true (hs.of_neg h)
      have hnum : num = num.natAbs := by omega
      have h := roundMag_nearest_val hd (hfin.1 hr) y
      rw [← hnum] at h
      rwa [val_of_signBit_false hsign, hbits]
    | true =>
      have hnonpos : ¬0 < num := fun h => Bool.false_ne_true (hs.of_pos h).symm
      have hnum : num = -(num.natAbs : Int) := by omega
      have hflip (v : Int) : |v * den - num| = |-v * den - num.natAbs| := by
        rw [← abs_neg]; congr 1; rw [hnum]; simp; ring
      have h := roundMag_nearest_val hd (hfin.1 hr) (fneg y)
      rw [val_fneg] at h
      rw [hflip, hflip, val_of_signBit_true hsign, hbits, neg_neg]
      exact ⟨h.1, fun hne => h.2 fun he => hne (by rw [← he, neg_neg])⟩
  · have hnan : isNaN r = false := isNaN_eq_false_iff.2 (hbits ▸ roundMag_le_infMag _ _)
    exact (isFinite_or_isInf_of_not_isNaN hnan).resolve_left (by simp [hr])
  · rw [hsign]; exact hs.of_neg
  · rw [hsign]; exact hs.of_pos

section Finite

variable {a b : F64}

theorem correctlyRounded_fadd (ha : isFinite a = true) (hb : isFinite b = true) :
    CorrectlyRounded (fadd a b) (val a + val b) 1 := by
  rw [fadd_of_isFinite ha hb, roundInt_eq_ofSignMag]
  refine correctlyRounded_ofSignMag Nat.one_pos ⟨fun h => ?_, fun h => ?_⟩
  · rw [if_neg h.ne, decide_eq_true h]
  · rw [if_neg h.ne', decide_eq_false h.not_gt]

theorem correctlyRounded_fsub (ha : isFinite a = true) (hb : isFinite b = true) :
    CorrectlyRounded (fsub a b) (val a - val b) 1 := by
  rw [sub_eq_add_neg, ← val_fneg]
  exact correctlyRounded_fadd ha (by rwa [isFinite_fneg])

theorem correctlyRounded_fmul (ha : isFinite a = true) (hb : isFinite b = true) :
    CorrectlyRounded (fmul a b) (val a * val b) (2 ^ 1074) := by
  rw [fmul_of_isFinite ha hb, ← natAbs_val a, ← natAbs_val b, ← Int.natAbs_mul]
  exact correctlyRounded_ofSignMag (pow_pos two_pos 1074) ((signAgrees_val a).mul (signAgrees_val b))

/-- The exact quotient's numerator and its magnitude. -/
theorem natAbs_quotient_num (a : F64) (k : Nat) (hz : isZero b = false) :
    (val a * 2 ^ k * (val b).sign).natAbs = mag a * 2 ^ k := by
  have hb : val b ≠ 0 := fun h => (isZero_eq_false_iff.1 hz).ne' (val_eq_zero_iff.1 h)
  rw [Int.natAbs_mul, Int.natAbs_mul, natAbs_val, Int.natAbs_sign_of_ne_zero hb, Nat.mul_one, Int.natAbs_pow]
  rfl

theorem correctlyRounded_fdiv (ha : isFinite a = true) (hb : isFinite b = true) (hz : isZero b = false) :
    CorrectlyRounded (fdiv a b) (val a * 2 ^ 1074 * (val b).sign) (val b).natAbs := by
  have hpos : 0 < (val b).natAbs :=
    Int.natAbs_pos.2 fun h => (isZero_eq_false_iff.1 hz).ne' (val_eq_zero_iff.1 h)
  rw [fdiv_of_isFinite ha hb hz, ← natAbs_quotient_num a 1074 hz, ← natAbs_val b]
  exact correctlyRounded_ofSignMag hpos (((signAgrees_val a).mul_pow_two 1074).mul (signAgrees_val b).sign)

end Finite

/-- Settles O54: each operation is `roundMag` of the exact magnitude under the exact sign. -/
theorem arithmeticIsCorrectlyRounded : Obligations.ArithmeticIsCorrectlyRounded := fun _ _ ha hb =>
  ⟨correctlyRounded_fadd ha hb, correctlyRounded_fsub ha hb, correctlyRounded_fmul ha hb, correctlyRounded_fdiv ha hb⟩

end Sys2Proof.Machine
end

section
/-! What a command can do, said once: the state it writes and the answer it gives. The exec inversions of Laws/Exec.lean
gathered into one relation, from which the invariants and frames follow by a split over its constructors. -/

namespace Sys2Proof.Machine

variable {s t u : State} {i : Instr} {code : BitVec 4} {data : List Byte}

/-- The state after a command that wrote `u` has answered `code` with `data` (30_encoding.md R84). -/
def answered (code : BitVec 4) (data : List Byte) (u : State) : State :=
  { u with lastErr := code, responses := u.responses ++ [statusByte code :: data] }

theorem ok_eq_answered (data : List Byte) (u : State) : ok data u = .next (answered 0#4 data u) := rfl

theorem raise_eq_answered (e : ErrCode) (u : State) : raise e u = .next (answered (errCode e) [] u) := rfl

theorem answered_responses :
    (answered code data u).responses = u.responses ++ [statusByte code :: data] := rfl

/-- `CommandEffect s i code data u`: command `i` at `s` may leave the registers as `u` has them and answer `code` with
the payload `data`. One constructor per success of a command, one for each write R215 lets an error make, and one for
the errors that write nothing. -/
inductive CommandEffect (s : State) : Instr → BitVec 4 → List Byte → State → Prop where
  | error (i : Instr) (e : ErrCode) : CommandEffect s i (errCode e) [] s
  | configure {alg : Byte} {hl hw radius rated : F64} {midmask mid0 mid1 mid2 mid3 : Byte}
      (valid : configValid s.velScale alg hl hw radius rated midmask = true) :
      CommandEffect s (.configure alg hl hw radius rated midmask mid0 mid1 mid2 mid3) 0#4 []
        { invalidate s with cfg := some (configRegs alg hl hw radius rated mid0 mid1 mid2 mid3), configured := true }
  | configureFailed {alg : Byte} {hl hw radius rated : F64} {midmask mid0 mid1 mid2 mid3 : Byte} :
      CommandEffect s (.configure alg hl hw radius rated midmask mid0 mid1 mid2 mid3) (errCode .configurationError) []
        { invalidate s with cfg := none }
  | csInit : CommandEffect s .csInit 0#4 [0x00#8] { s with csAcc := 0x00#8 }
  | csByte {b : Byte} (acc : Byte) : CommandEffect s (.csByte b) 0#4 [acc] { s with csAcc := acc }
  | encode {ch mid mode accel : Byte} {vel : Half} (c : Fin Config.nch) (named : c.val = ch.toNat) (g : ConfigRegs)
      (cfg : s.cfg = some g) :
      CommandEffect s (.encode ch mid mode vel accel) 0#4 (encodeFrame g.alg mid mode vel accel).toList
        (latchTx s c (encodeFrame g.alg mid mode vel accel))
  | encodeWheel {ch mode : Byte} (c : Fin Config.nch) (named : c.val = ch.toNat) (g : ConfigRegs)
      (cfg : s.cfg = some g) (k : KinRegs) :
      CommandEffect s (.encodeWheel ch mode) 0#4 (encodeFrame g.alg g.mid[c] mode k.wsp[c] 0x00#8).toList
        (latchTx s c (encodeFrame g.alg g.mid[c] mode k.wsp[c] 0x00#8))
  | rxClear {ch : Byte} (c : Fin Config.nch) (named : c.val = ch.toNat) :
      CommandEffect s (.rxClear ch) 0#4 [] (setChan s c (clearRx (chanOf s c)))
  | rxPush {ch b : Byte} (c : Fin Config.nch) (named : c.val = ch.toNat) :
      CommandEffect s (.rxPush ch b) 0#4 [(pushRx (chanOf s c) b).rxLen] (setChan s c (pushRx (chanOf s c) b))
  | decode {ch : Byte} (c : Fin Config.nch) (named : c.val = ch.toNat) (g : ConfigRegs) (f : Frame)
      (configured : s.configured = true) (cfg : s.cfg = some g) (full : (chanOf s c).rxLen.toNat = 10)
      (read : readRxFrame (chanOf s c) = .ok f) (verifies : frameVerifies g.alg f = true) :
      CommandEffect s (.decode ch) 0#4 (telemetryBytes (telemetry f)) (latchTel s c (telemetry f))
  | decodeFailed {ch : Byte} (c : Fin Config.nch) (named : c.val = ch.toNat) (e : ErrCode) :
      CommandEffect s (.decode ch) (errCode e) [] (dropTel s c)
  | solve {vx vy wz : F64} (configured : s.configured = true) (wrad : Vector F64 4) (sat : Bool) :
      CommandEffect s (.solve vx vy wz) 0#4 (solveBytes sat (wrad.map (toWire s.velScale)))
        { s with
          kt := some { wrad := wrad, wsp := wrad.map (toWire s.velScale) }
          ktSat := sat
          ktValid := true }

/-- `t` is what command `i` leaves of `s`: the state of one of its effects, answered. -/
def AnswersWith (s : State) (i : Instr) (t : State) : Prop :=
  ∃ code data u, CommandEffect s i code data u ∧ t = answered code data u

theorem CommandEffect.of_ok (he : CommandEffect s i 0#4 data u) (h : ok data u = .next t) : AnswersWith s i t :=
  ⟨_, _, _, he, (Host.Outcome.next.inj ((ok_eq_answered data u).symm.trans h)).symm⟩

theorem CommandEffect.of_raise {e : ErrCode} (he : CommandEffect s i (errCode e) [] u) (h : raise e u = .next t) :
    AnswersWith s i t :=
  ⟨_, _, _, he, (Host.Outcome.next.inj ((raise_eq_answered e u).symm.trans h)).symm⟩

/-- An error raised at `s` itself is an effect of any command. -/
theorem answersWith_of_raise {e : ErrCode} (h : raise e s = .next t) : AnswersWith s i t :=
  (CommandEffect.error i e).of_raise h

/-- The two errors a command on a channel checks first. -/
theorem answersWith_of_channel_error {ch : Byte} (h : (s.configured = false ∧ raise .notConfigured s = .next t) ∨
    (Config.nch ≤ ch.toNat ∧ raise .badChannel s = .next t)) : AnswersWith s i t := by
  obtain ⟨-, h⟩ | ⟨-, h⟩ := h <;> exact answersWith_of_raise h

/-- Whatever command runs to a next state has one of its effects. -/
theorem exec_next (h : exec i s = .next t) : AnswersWith s i t := by
  cases i with
  | configure =>
    obtain ⟨hv, h⟩ | ⟨-, h⟩ := execConfigure_next h
    · exact (CommandEffect.configure hv).of_ok h
    · exact CommandEffect.configureFailed.of_raise h
  | csInit =>
    obtain ⟨-, h⟩ | ⟨-, h⟩ := execCsInit_next h
    · exact CommandEffect.csInit.of_ok h
    · exact answersWith_of_raise h
  | csByte =>
    obtain ⟨g, -, -, h⟩ | ⟨-, h⟩ := execCsByte_next h
    · exact (CommandEffect.csByte _).of_ok h
    · exact answersWith_of_raise h
  | encode =>
    obtain ⟨c, g, hn, -, hg, h⟩ | h := execEncode_next h
    · exact (CommandEffect.encode c hn g hg).of_ok h
    · exact answersWith_of_channel_error h
  | encodeWheel =>
    obtain ⟨c, g, k, hn, -, hg, -, -, h⟩ | ⟨-, -, -, h⟩ | h := execEncodeWheel_next h
    · exact (CommandEffect.encodeWheel c hn g hg k).of_ok h
    · exact answersWith_of_raise h
    · exact answersWith_of_channel_error h
  | rxClear =>
    obtain ⟨c, hn, -, h⟩ | h := execRxClear_next h
    · exact (CommandEffect.rxClear c hn).of_ok h
    · exact answersWith_of_channel_error h
  | rxPush =>
    obtain ⟨c, hn, -, h⟩ | h := execRxPush_next h
    · exact (CommandEffect.rxPush c hn).of_ok h
    · exact answersWith_of_channel_error h
  | decode =>
    obtain ⟨c, g, f, hn, hc, hg, hl, hf, hv, h⟩ | ⟨c, e, hn, -, -, h⟩ | h := execDecode_next h
    · exact (CommandEffect.decode c hn g f hc hg hl hf hv).of_ok h
    · exact (CommandEffect.decodeFailed c hn e).of_raise h
    · exact answersWith_of_channel_error h
  | solve =>
    obtain ⟨g, hc, -, -, h⟩ | ⟨-, h⟩ | ⟨-, h⟩ := execSolve_next h
    · exact (CommandEffect.solve hc _ _).of_ok h
    · exact answersWith_of_raise h
    · exact answersWith_of_raise h

/-- What one step can do: idle, reset, refuse an illegal string with ILLEGAL_OP, or run the command it decodes to. -/
theorem step_next (h : step s = .next t) :
    (s.inputs = [] ∧ t = s) ∨
    (∃ rest, s.inputs = .reset :: rest ∧ t = resetBlock { s with inputs := rest }) ∨
    (∃ bytes rest, s.inputs = .command bytes :: rest ∧
      t = answered (errCode .illegalOp) [] { s with inputs := rest }) ∨
    (∃ bytes rest i, s.inputs = .command bytes :: rest ∧ decode bytes = .ok i ∧
      AnswersWith { s with inputs := rest } i t) := by
  cases hi : s.inputs with
  | nil =>
    rw [step_idle hi] at h
    exact .inl ⟨rfl, (Host.Outcome.next.inj h).symm⟩
  | cons a rest =>
    cases a with
    | reset =>
      rw [step_reset hi] at h
      exact .inr (.inl ⟨rest, rfl, (Host.Outcome.next.inj h).symm⟩)
    | command bytes =>
      rw [step_command hi] at h
      cases hd : decode bytes with
      | error e =>
        rw [runCommand_of_error hd] at h
        exact .inr (.inr (.inl ⟨bytes, rest, rfl, (Host.Outcome.next.inj h).symm⟩))
      | ok i =>
        rw [runCommand_of_decode hd] at h
        exact .inr (.inr (.inr ⟨bytes, rest, i, rfl, hd, exec_next h⟩))

end Sys2Proof.Machine
end

section
/-! The invariant (10_state.md R34), channel by channel, and that every effect of a command keeps it. -/

namespace Sys2Proof.Machine

variable {s t u : State} {i : Instr} {code : BitVec 4} {data : List Byte} {c : Fin Config.nch}
  {cfg : Option ConfigRegs} {k : Channel}

/-- The part of `Inv` that speaks of one channel, under the configuration registers `cfg`. -/
structure ChannelInv (cfg : Option ConfigRegs) (k : Channel) : Prop where
  tx_verifies : k.txValid = true → ∃ g f, cfg = some g ∧ k.txf = some f ∧ frameVerifies g.alg f = true
  rx_value : ∀ i : Fin 10, i.val < min k.rxLen.toNat 10 → (k.rxb[i]).isSome = true
  tel_decoded : k.telValid = true →
    ∃ g f, cfg = some g ∧ frameVerifies g.alg f = true ∧ k.tel = some (telemetry f)

theorem Inv.channel (hs : Inv s) (c : Fin Config.nch) : ChannelInv s.cfg (chanOf s c) :=
  ⟨hs.tx_verifies c, hs.rx_value c, hs.tel_decoded c⟩

/-- A property of the channel written and of every channel before holds of every channel after. -/
theorem chanOf_setChan_forall {P : Channel → Prop} (hk : P k) (h : ∀ d, P (chanOf s d)) (d : Fin Config.nch) :
    P (chanOf (setChan s c k) d) := by
  by_cases hd : c = d
  · subst hd
    rwa [chanOf_setChan_same]
  · rw [chanOf_setChan_ne _ _ _ _ hd]
    exact h d

/-- A field of the channel that a write leaves as it was is left so in every channel. -/
theorem chanOf_setChan_field {α : Type} (p : Channel → α) (d : Fin Config.nch)
    (h : p k = p (chanOf s c) := by rfl) : p (chanOf (setChan s c k) d) = p (chanOf s d) := by
  by_cases hd : c = d
  · subst hd
    rwa [chanOf_setChan_same]
  · rw [chanOf_setChan_ne _ _ _ _ hd]

/-! Which writes to a channel keep its part of the invariant. -/

theorem channelInv_of_invalid (htx : k.txValid = false) (hrx : k.rxLen = 0#8) (htel : k.telValid = false) :
    ChannelInv cfg k :=
  ⟨by simp [htx], by simp [hrx], by simp [htel]⟩

/-- `encode_A`'s frames verify (42_frame_codec.md R154). -/
theorem frameVerifies_encodeFrame (alg : Alg) (mid mode : Byte) (vel : Half) (accel : Byte) :
    frameVerifies alg (encodeFrame alg mid mode vel accel) = true := by
  have body : frameBody (encodeFrame alg mid mode vel accel) = requestBody mid mode vel accel := rfl
  rw [frameVerifies, body]
  exact beq_self_eq_true _

theorem ChannelInv.latchTx {g : ConfigRegs} {f : Frame} (hk : ChannelInv cfg k) (hg : cfg = some g)
    (hf : frameVerifies g.alg f = true) : ChannelInv cfg { k with txf := some f, txValid := true } :=
  { hk with tx_verifies := fun _ => ⟨g, f, hg, rfl, hf⟩ }

theorem ChannelInv.latchTel {g : ConfigRegs} {f : Frame} (hk : ChannelInv cfg k) (hg : cfg = some g)
    (hf : frameVerifies g.alg f = true) : ChannelInv cfg { k with tel := some (telemetry f), telValid := true } :=
  { hk with tel_decoded := fun _ => ⟨g, f, hg, hf, rfl⟩ }

theorem ChannelInv.dropTel (hk : ChannelInv cfg k) : ChannelInv cfg { k with telValid := false } :=
  { hk with tel_decoded := fun h => absurd h Bool.false_ne_true }

theorem ChannelInv.clearRx (hk : ChannelInv cfg k) : ChannelInv cfg (clearRx k) :=
  { hk with rx_value := by simp }

/-- The count of received bytes after RX_PUSH (R156). -/
theorem toNat_pushRx_rxLen (k : Channel) (b : Byte) :
    (pushRx k b).rxLen.toNat = if k.rxLen.toNat < 255 then k.rxLen.toNat + 1 else k.rxLen.toNat := by
  have h255 : Config.rxLenMax.toNat = 255 := rfl
  have h1 : (1#8).toNat = 1 := rfl
  simp only [pushRx_rxLen, BitVec.lt_def, h255]
  split
  · rw [BitVec.toNat_add, h1]
    omega
  · rfl

/-- The slots of the buffer after RX_PUSH (R156). -/
theorem pushRx_rxb_getElem (k : Channel) (b : Byte) (i : Fin 10) :
    (pushRx k b).rxb[i] = if k.rxLen.toNat = i.val then some b else k.rxb[i] := by
  rw [pushRx_rxb]
  split
  · simp [Vector.getElem_set]
  · rw [if_neg (by omega)]

theorem ChannelInv.pushRx (hk : ChannelInv cfg k) (b : Byte) : ChannelInv cfg (pushRx k b) :=
  { hk with
    rx_value := fun i hi => by
      rw [toNat_pushRx_rxLen] at hi
      rw [pushRx_rxb_getElem]
      split
      · rfl
      · exact hk.rx_value i (by split at hi <;> omega) }

/-! Which writes to the state keep the invariant. -/

theorem Inv.answered (hs : Inv u) (hc : code.toNat ≤ 9) : Inv (answered code data u) :=
  { hs with err_code := hc }

theorem Inv.withInputs (hs : Inv s) (l : List Input) : Inv { s with inputs := l } := { hs with }

theorem Inv.setChan (hs : Inv s) (hk : ChannelInv s.cfg k) : Inv (setChan s c k) :=
  have channels := chanOf_setChan_forall (c := c) hk hs.channel
  { hs with
    tx_verifies := fun d => (channels d).tx_verifies
    rx_value := fun d => (channels d).rx_value
    tel_decoded := fun d => (channels d).tel_decoded }

/-- A state whose valid bits and counts are all clear, as reset and CONFIGURE leave them, needs only a legal
configuration. -/
theorem inv_of_invalid (hcfg : s.configured = s.cfg.isSome) (hlegal : ∀ g, s.cfg = some g → ConfigLegal s.velScale g)
    (hkt : s.ktValid = false) (hsat : s.ktSat = false) (herr : s.lastErr.toNat ≤ 9)
    (hch : ∀ c, (chanOf s c).txValid = false ∧ (chanOf s c).rxLen = 0#8 ∧ (chanOf s c).telValid = false) : Inv s :=
  have channels : ∀ c, ChannelInv s.cfg (chanOf s c) := fun c =>
    have ⟨htx, hrx, htel⟩ := hch c
    channelInv_of_invalid htx hrx htel
  { config_value := hcfg
    config_legal := hlegal
    kt_configured := by simp [hkt]
    kt_value := by simp [hkt]
    kt_sat := by simp [hsat]
    tx_verifies := fun c => (channels c).tx_verifies
    rx_value := fun c => (channels c).rx_value
    tel_decoded := fun c => (channels c).tel_decoded
    err_code := herr }

theorem Inv.resetBlock (s : State) : Inv (resetBlock s) :=
  inv_of_invalid rfl (by simp) rfl rfl (by simp) (by simp [Channel.reset])

/-- What CONFIGURE validates is what R25 asks of the registers it latches. -/
theorem configLegal_of_configValid {v : F64} {alg : Byte} {hl hw radius rated : F64} {midmask : Byte}
    (mid0 mid1 mid2 mid3 : Byte) (h : configValid v alg hl hw radius rated midmask = true) :
    ConfigLegal v (configRegs alg hl hw radius rated mid0 mid1 mid2 mid3) := by
  simp only [configValid, Bool.and_eq_true, Bool.not_eq_true'] at h
  obtain ⟨⟨⟨⟨⟨⟨⟨-, hhl, hhw⟩, hradius, hpos⟩, hrated, hrpos⟩, hfits⟩, -⟩, hrc⟩, hlimit, hlpos⟩ := h
  exact ⟨hhl, hhw, hradius, hpos, hrated, hrpos, hfits, rfl, hrc, rfl, hlimit, hlpos⟩

/-- Every code a command answers is one of R211's. -/
theorem CommandEffect.code_le_nine (he : CommandEffect s i code data u) : code.toNat ≤ 9 := by
  cases he with
  | error | configureFailed | decodeFailed => exact errCode_le_nine _
  | _ => exact Nat.zero_le _

/-- The registers any command leaves meet the invariant if those it found did. -/
theorem CommandEffect.inv (hs : Inv s) (he : CommandEffect s i code data u) : Inv u := by
  cases he with
  | error => exact hs
  | configure valid =>
    exact inv_of_invalid rfl
      (fun g hg => Option.some.inj hg ▸ configLegal_of_configValid _ _ _ _ valid) rfl rfl hs.err_code
      (fun c => by simp [chanOf])
  | configureFailed =>
    exact inv_of_invalid rfl (by simp) rfl rfl hs.err_code (fun c => by simp [chanOf])
  | csInit => exact { hs with }
  | csByte acc => exact { hs with }
  | encode c _ g hg => exact hs.setChan ((hs.channel c).latchTx hg (frameVerifies_encodeFrame ..))
  | encodeWheel c _ g hg k => exact hs.setChan ((hs.channel c).latchTx hg (frameVerifies_encodeFrame ..))
  | rxClear c => exact hs.setChan (hs.channel c).clearRx
  | rxPush c => exact hs.setChan ((hs.channel c).pushRx _)
  | decode c _ g f _ hg _ _ hv => exact hs.setChan ((hs.channel c).latchTel hg hv)
  | decodeFailed c => exact hs.setChan (hs.channel c).dropTel
  | solve hc wrad sat =>
    exact { hs with
      kt_configured := fun _ => hc
      kt_value := fun _ => ⟨_, rfl, rfl⟩
      kt_sat := fun _ => rfl }

theorem AnswersWith.inv (hs : Inv s) (h : AnswersWith s i t) : Inv t := by
  obtain ⟨code, data, u, he, rfl⟩ := h
  exact (he.inv hs).answered he.code_le_nine

/-- Settles O9: after reset no valid bit is set, no byte received and no configuration held. -/
theorem resetMeetsTheInvariant : Obligations.ResetMeetsTheInvariant := fun _ _ =>
  inv_of_invalid rfl (by simp [State.reset]) rfl rfl (by simp [State.reset])
    (by simp [chanOf, State.reset, Channel.reset])

/-- Settles O10, by the four things a step can do. -/
theorem everyStepKeepsTheInvariant : Obligations.EveryStepKeepsTheInvariant := fun s t hs h => by
  obtain ⟨-, rfl⟩ | ⟨rest, -, rfl⟩ | ⟨bytes, rest, -, rfl⟩ | ⟨bytes, rest, i, -, -, ha⟩ := step_next h
  · exact hs
  · exact Inv.resetBlock _
  · exact (hs.withInputs rest).answered (errCode_le_nine _)
  · exact ha.inv (hs.withInputs rest)

end Sys2Proof.Machine
end

section
/-! No stop from a state that meets the invariant (60_exceptions.md R219): every read a command makes finds a value. -/

namespace Sys2Proof.Machine

variable {s : State}

/-- The command completes: neither a fault nor a refusal. -/
def Completes (r : Result) : Prop := ∃ t, r = .next t

theorem completes_ok (data : List Byte) (s : State) : Completes (ok data s) := ⟨_, rfl⟩

theorem completes_raise (e : ErrCode) (s : State) : Completes (raise e s) := ⟨_, rfl⟩

theorem completes_ifConfigured {rest : Result} (h : s.configured = true → Completes rest) :
    Completes (ifConfigured s rest) := by
  cases hc : s.configured with
  | true => exact ifConfigured_pos hc ▸ h hc
  | false => exact ifConfigured_neg hc ▸ completes_raise _ s

theorem completes_withChannel {ch : Byte} {rest : Fin Config.nch → Result} (h : ∀ c, Completes (rest c)) :
    Completes (withChannel ch s rest) := by
  unfold withChannel
  split
  · exact h _
  · exact completes_raise _ s

theorem completes_withRead {α : Type} {r : Except Fault α} {rest : α → Result} (hr : ∃ a, r = .ok a)
    (h : ∀ a, Completes (rest a)) : Completes (withRead r rest) := by
  obtain ⟨a, rfl⟩ := hr
  exact h a

theorem Inv.readConfig (hs : Inv s) (hc : s.configured = true) : ∃ g, readConfig s = .ok g := by
  obtain ⟨g, hg⟩ := Option.isSome_iff_exists.mp (hs.config_value ▸ hc)
  exact ⟨g, readConfig_ok_iff.mpr hg⟩

theorem Inv.readSetpoints (hs : Inv s) (hv : s.ktValid = true) : ∃ k, readSetpoints s = .ok k := by
  obtain ⟨k, hk, -⟩ := hs.kt_value hv
  exact ⟨k, readSetpoints_ok_iff.mpr ⟨hv, hk⟩⟩

theorem Inv.readRxFrame (hs : Inv s) (c : Fin Config.nch) (hl : 10 ≤ (chanOf s c).rxLen.toNat) :
    ∃ f, readRxFrame (chanOf s c) = .ok f := by
  have hv : ∀ i : Fin 10, ((chanOf s c).rxb[i]).isSome = true := fun i => hs.rx_value c i (by omega)
  refine ⟨Vector.ofFn fun i => ((chanOf s c).rxb[i]).get (hv i), readRxFrame_full hl ?_⟩
  ext1 i hi
  simp

/-- Every command completes from a state that meets the invariant. -/
theorem Inv.exec_completes (hs : Inv s) (i : Instr) : Completes (exec i s) := by
  cases i with
  | configure =>
    change Completes (ite _ _ _)
    split
    · exact completes_ok ..
    · exact completes_raise ..
  | csInit => exact completes_ifConfigured fun _ => completes_ok ..
  | csByte => exact completes_ifConfigured fun hc => completes_withRead (hs.readConfig hc) fun _ => completes_ok ..
  | encode =>
    exact completes_ifConfigured fun hc => completes_withChannel fun _ =>
      completes_withRead (hs.readConfig hc) fun _ => completes_ok ..
  | encodeWheel =>
    refine completes_ifConfigured fun hc => completes_withChannel fun _ => ?_
    split <;> rename_i hv
    · exact completes_withRead (hs.readConfig hc) fun _ => completes_withRead (hs.readSetpoints hv) fun _ =>
        completes_ok ..
    · exact completes_raise ..
  | rxClear => exact completes_ifConfigured fun _ => completes_withChannel fun _ => completes_ok ..
  | rxPush => exact completes_ifConfigured fun _ => completes_withChannel fun _ => completes_ok ..
  | decode =>
    refine completes_ifConfigured fun hc => completes_withChannel fun c => ?_
    dsimp only
    split <;> rename_i hshort
    · exact completes_raise ..
    split
    · exact completes_raise ..
    refine completes_withRead (hs.readConfig hc) fun g =>
      completes_withRead (hs.readRxFrame c (Nat.le_of_not_lt hshort)) fun f => ?_
    split
    · exact completes_raise ..
    · exact completes_ok ..
  | solve =>
    refine completes_ifConfigured fun hc => ?_
    split
    · refine completes_withRead (hs.readConfig hc) fun g => ?_
      dsimp only
      split
      · exact completes_ok ..
      · exact completes_raise ..
    · exact completes_raise ..

theorem Inv.runCommand_completes (hs : Inv s) (bytes : List Byte) : Completes (runCommand bytes s) := by
  cases hd : Sys2Proof.decode bytes with
  | ok i => exact runCommand_of_decode hd ▸ hs.exec_completes i
  | error e => exact runCommand_of_error hd ▸ completes_raise .illegalOp s

/-- Settles O11, by the host's next input. -/
theorem noStepStopsFromAnInvariantState : Obligations.NoStepStopsFromAnInvariantState := fun s hs => by
  match hi : s.inputs with
  | [] => exact ⟨_, step_idle hi⟩
  | .reset :: rest => exact ⟨_, step_reset hi⟩
  | .command bytes :: rest =>
    rw [step_command hi]
    exact (hs.withInputs rest).runCommand_completes bytes

/-- Safety and progress together, for any number of steps. -/
theorem Inv.run (hs : Inv s) (k : Nat) : ∃ t : State, Host.Core.run core k s = .next t ∧ Inv t := by
  induction k generalizing s with
  | zero => exact ⟨s, rfl, hs⟩
  | succ k ih =>
    obtain ⟨u, hu⟩ := noStepStopsFromAnInvariantState s hs
    have run_succ : Host.Core.run core (k + 1) s = Host.Core.run core k u := by
      have hstep : core.step s = .next u := hu
      simp only [Host.Core.run, hstep]
    rw [run_succ]
    exact ih (everyStepKeepsTheInvariant s u hs hu)

/-- Settles O12: reset meets the invariant, and from there every run does. -/
theorem everyHostProgramRunsWithoutStop : Obligations.EveryHostProgramRunsWithoutStop := fun l v k =>
  (resetMeetsTheInvariant l v).run k

end Sys2Proof.Machine
end

section
/-! What the host reads of frames and telemetry is verified (10_state.md R34). -/

namespace Sys2Proof.Machine

variable {s t u : State} {i : Instr} {code : BitVec 4} {data : List Byte} {c : Fin Config.nch}

theorem portTxf_ok_iff {f : Frame} :
    portTxf s c = .ok f ↔ (chanOf s c).txValid = true ∧ (chanOf s c).txf = some f := by
  cases hv : (chanOf s c).txValid <;> cases hf : (chanOf s c).txf <;> simp [portTxf, hv, hf]

theorem portTel_ok_iff {r : Telemetry} :
    portTel s c = .ok r ↔ (chanOf s c).telValid = true ∧ (chanOf s c).tel = some r := by
  cases hv : (chanOf s c).telValid <;> cases hr : (chanOf s c).tel <;> simp [portTel, hv, hr]

/-- A frame that verifies, in the words of R106. -/
theorem frameVerifies_iff {alg : Alg} {f : Frame} :
    frameVerifies alg f = true ↔ checksum alg (f.toList.take 9) = f[9] := beq_iff_eq

theorem Inv.portTxf_verifies (hs : Inv s) {f : Frame} (h : portTxf s c = .ok f) :
    ∃ g, s.cfg = some g ∧ checksum g.alg (f.toList.take 9) = f[9] := by
  obtain ⟨hv, hf⟩ := portTxf_ok_iff.mp h
  obtain ⟨g, f', hg, hf', hver⟩ := hs.tx_verifies c hv
  obtain rfl : f = f' := Option.some.inj (hf.symm.trans hf')
  exact ⟨g, hg, frameVerifies_iff.mp hver⟩

/-! Only DECODE writes telemetry. -/

/-- `u` shows on the `TEL` port of `c` no record that `s` does not. -/
def NoNewTelemetry (s u : State) (c : Fin Config.nch) : Prop := ∀ r, portTel u c = .ok r → portTel s c = .ok r

theorem noNewTelemetry_of_eq (hv : (chanOf u c).telValid = (chanOf s c).telValid)
    (ht : (chanOf u c).tel = (chanOf s c).tel) : NoNewTelemetry s u c := fun r h => by
  rw [portTel_ok_iff] at h ⊢
  rwa [← hv, ← ht]

theorem noNewTelemetry_of_invalid (hv : (chanOf u c).telValid = false) : NoNewTelemetry s u c := fun r h => by
  simp [portTel_ok_iff, hv] at h

/-- A command writes new telemetry only as a DECODE of a full buffer that verifies (R157 to R160). -/
theorem CommandEffect.telemetry (he : CommandEffect s i code data u) (c : Fin Config.nch) :
    NoNewTelemetry s u c ∨ ∃ ch g f, i = .decode ch ∧ c.val = ch.toNat ∧ s.configured = true ∧ s.cfg = some g ∧
      (chanOf s c).rxLen.toNat = 10 ∧ readRxFrame (chanOf s c) = .ok f ∧ frameVerifies g.alg f = true ∧
      (chanOf u c).tel = some (telemetry f) := by
  have kept {d : Fin Config.nch} {k : Channel} (hv : k.telValid = (chanOf s d).telValid)
      (ht : k.tel = (chanOf s d).tel) : NoNewTelemetry s (setChan s d k) c :=
    noNewTelemetry_of_eq (chanOf_setChan_field Channel.telValid c hv) (chanOf_setChan_field Channel.tel c ht)
  cases he with
  | error | csInit | csByte | solve => exact .inl fun _ h => h
  | configure | configureFailed => exact .inl (noNewTelemetry_of_invalid (by simp [chanOf]))
  | encode | encodeWheel | rxClear | rxPush => exact .inl (kept rfl rfl)
  | @decode ch d hn g f hc hg hl hf hv =>
    by_cases hd : d = c
    · subst hd
      exact .inr ⟨ch, g, f, rfl, hn, hc, hg, hl, hf, hv, by simp⟩
    · exact .inl fun r h => by rwa [portTel_ok_iff, chanOf_latchTel_ne _ _ _ _ hd, ← portTel_ok_iff] at h
  | decodeFailed d =>
    by_cases hd : d = c
    · subst hd
      exact .inl (noNewTelemetry_of_invalid (by simp))
    · exact .inl fun r h => by rwa [portTel_ok_iff, chanOf_dropTel_ne _ _ _ hd, ← portTel_ok_iff] at h

/-! The one string of a DECODE. -/

@[simp] theorem noMore_eq_some_iff {α : Type} {a b : α} {bytes : List Byte} :
    noMore a bytes = some b ↔ bytes = [] ∧ a = b := by
  cases bytes <;> simp [noMore]

theorem takeByte_eq_some_iff {bytes rest : List Byte} {b : Byte} :
    takeByte bytes = some (b, rest) ↔ bytes = b :: rest := by
  cases bytes <;> simp [takeByte]

theorem parseDecode_eq_some_iff {operands : List Byte} {ch : Byte} :
    parseDecode operands = some (.decode ch) ↔ operands = [ch] := by
  simp [parseDecode, Option.bind_eq_some_iff, takeByte_eq_some_iff]

/-- No other op code's operands parse to a DECODE (30_encoding.md R81). -/
theorem operandParser_decode {op ch : Byte} {parse : List Byte → Option Instr} {operands : List Byte}
    (hp : operandParser op = some parse) (h : parse operands = some (.decode ch)) :
    op = 0x32#8 ∧ parse = parseDecode := by
  by_cases hop : op = 0x32#8
  · subst hop
    exact ⟨rfl, (Option.some.inj hp).symm⟩
  · simp only [operandParser, if_neg hop] at hp
    split_ifs at hp
    all_goals
      obtain rfl := Option.some.inj hp
      simp [parseConfigure, parseCsInit, parseCsByte, parseEncode, parseEncodeWheel, parseRxClear, parseRxPush,
        parseSolve, Option.bind_eq_some_iff] at h

theorem eq_of_decode_eq_decode {bytes : List Byte} {ch : Byte} (h : Sys2Proof.decode bytes = .ok (.decode ch)) :
    bytes = [0x32#8, ch] := by
  unfold Sys2Proof.decode at h
  split at h
  · cases h
  split at h
  · cases h
  rename_i op operands parse hp
  split at h
  · cases h
  rename_i i hi
  obtain rfl := Except.ok.inj h
  obtain ⟨rfl, rfl⟩ := operandParser_decode hp hi
  rw [parseDecode_eq_some_iff.mp hi]

/-- The slots of a buffer that reads as `f`. -/
theorem rxb_eq_map_some {k : Channel} {f : Frame} (h : readRxFrame k = .ok f) : k.rxb = f.map some := by
  ext1 i hi
  simpa using readRxFrame_ok h ⟨i, hi⟩

/-- Settles O13: the invariant for `TXF`, and for `TEL` what one step can do. -/
theorem readableFramesAndTelemetryAreVerified : Obligations.ReadableFramesAndTelemetryAreVerified := by
  refine ⟨fun l v k t c hrun f hf => ?_, fun s t c r h ht hs => ?_⟩
  · obtain ⟨t', hrun', hinv⟩ := everyHostProgramRunsWithoutStop l v k
    obtain rfl : t = t' := Host.Outcome.next.inj (hrun.symm.trans hrun')
    exact hinv.portTxf_verifies hf
  · obtain ⟨-, rfl⟩ | ⟨rest, -, rfl⟩ | ⟨bytes, rest, -, rfl⟩ | ⟨bytes, rest, i, hin, hd, code, data, u, he, rfl⟩ :=
      step_next h
    · exact absurd ht hs
    · exact absurd (noNewTelemetry_of_invalid (by simp [Channel.reset]) r ht) hs
    · exact absurd ht hs
    · obtain hno | ⟨ch, g, f, rfl, hn, hc, hg, hl, hf, hv, htel⟩ := he.telemetry c
      · exact absurd (hno r ht) hs
      · obtain rfl : ch = BitVec.ofNat 8 c.val := by rw [hn, BitVec.ofNat_toNat, BitVec.setWidth_eq]
        exact ⟨rest, g, f, eq_of_decode_eq_decode hd ▸ hin, hc, hg, BitVec.eq_of_toNat_eq hl, rxb_eq_map_some hf,
          frameVerifies_iff.mp hv, Option.some.inj ((portTel_ok_iff.mp ht).2.symm.trans htel)⟩

end Sys2Proof.Machine
end

section
/-! What a command answers and what it leaves unchanged (10_state.md R23, R30, R33). -/

namespace Sys2Proof.Machine

variable {s t u : State} {i : Instr} {code : BitVec 4} {data : List Byte}

theorem CommandEffect.payload_nil (he : CommandEffect s i code data u) (h : code ≠ 0#4) : data = [] := by
  cases he with
  | error | configureFailed | decodeFailed => rfl
  | _ => exact absurd rfl h

/-- Settles O19, effect by effect: an error answers its code alone, a success the code 0 and its payload. -/
theorem everyCommandReturnsOneResponse : Obligations.EveryCommandReturnsOneResponse := fun i s t h => by
  obtain ⟨code, data, u, he, rfl⟩ := exec_next h
  refine ⟨data, ?_, he.code_le_nine, he.payload_nil, fun (h0 : code = 0#4) => ?_⟩
  · have responses_kept : u.responses = s.responses := by cases he <;> rfl
    rw [answered_responses, responses_kept]
    rfl
  · cases he with
    | error | configureFailed | decodeFailed => exact absurd h0 (errCode_ne_zero _)
    | _ => rfl

/-- Settles O20, effect by effect: each writes whole registers, or one channel of which it keeps the listed fields. -/
theorem onlyTheListedCommandsWriteARegister : Obligations.OnlyTheListedCommandsWriteARegister := fun i s t h => by
  obtain ⟨code, data, u, he, rfl⟩ := exec_next h
  cases he with
  | error i e => cases i <;> simp [answered]
  | configure | configureFailed => simp [answered]
  | csInit | csByte | solve => simp [answered]
  | encode c | encodeWheel c =>
    exact ⟨rfl, rfl, ⟨rfl, rfl⟩, rfl, ⟨rfl, rfl⟩, rfl, fun d => ⟨trivial, trivial,
      chanOf_setChan_field Channel.rxb d, chanOf_setChan_field Channel.rxLen d,
      chanOf_setChan_field Channel.telValid d, chanOf_setChan_field Channel.tel d⟩⟩
  | rxClear c | rxPush c =>
    exact ⟨rfl, rfl, ⟨rfl, rfl⟩, rfl, ⟨rfl, rfl⟩, rfl, fun d => ⟨
      chanOf_setChan_field Channel.txf d, chanOf_setChan_field Channel.txValid d, trivial, trivial,
      chanOf_setChan_field Channel.telValid d, chanOf_setChan_field Channel.tel d⟩⟩
  | decode c | decodeFailed c =>
    exact ⟨rfl, rfl, ⟨rfl, rfl⟩, rfl, ⟨rfl, rfl⟩, rfl, fun d => ⟨
      chanOf_setChan_field Channel.txf d, chanOf_setChan_field Channel.txValid d,
      chanOf_setChan_field Channel.rxb d, chanOf_setChan_field Channel.rxLen d, trivial, trivial⟩⟩

/-- The channel a command runs on is not one it does not name. -/
theorem channel_ne_of_operand_ne {ch : Byte} {c d : Fin Config.nch} (hn : c.val = ch.toNat)
    (hd : some ch ≠ some (BitVec.ofNat 8 d.val)) : c ≠ d := by
  rintro rfl
  rw [hn, BitVec.ofNat_toNat, BitVec.setWidth_eq] at hd
  exact hd rfl

theorem CommandEffect.chanOf_eq (he : CommandEffect s i code data u) {d : Fin Config.nch}
    (hi : isConfigure i = false) (hd : channelOperand i ≠ some (BitVec.ofNat 8 d.val)) :
    chanOf u d = chanOf s d := by
  cases he with
  | error | csInit | csByte | solve => rfl
  | configure | configureFailed => cases hi
  | encode c hn | encodeWheel c hn | rxClear c hn | rxPush c hn | decode c hn | decodeFailed c hn =>
    exact chanOf_setChan_ne _ _ _ _ (channel_ne_of_operand_ne hn hd)

/-- Settles O21: every effect but CONFIGURE's writes at most the channel named. -/
theorem commandsLeaveOtherChannelsAlone : Obligations.CommandsLeaveOtherChannelsAlone := fun i s t d h hi hd => by
  obtain ⟨code, data, u, he, rfl⟩ := exec_next h
  exact he.chanOf_eq hi hd

end Sys2Proof.Machine
end

section
/-! Noninterference (10_state.md R30, 20_memory.md R54): writing a channel that a command does not name commutes with
the command, stops included. -/

namespace Sys2Proof.Machine

variable {s u v : State} {d : Fin Config.nch} {k : Channel}

/-- The outcome with its next state, if it has one, changed by `f`. -/
def mapNext (f : State → State) : Result → Result
  | .next s => .next (f s)
  | .fault r => .fault r
  | .refused r => .refused r

/-- `r'` is the outcome `r` but that channel `d` of the next state holds `k`. -/
def SameBut (d : Fin Config.nch) (k : Channel) (r' r : Result) : Prop := r' = mapNext (fun u => setChan u d k) r

theorem sameBut_ok {data : List Byte} (h : v = setChan u d k) : SameBut d k (ok data v) (ok data u) := h ▸ rfl

theorem sameBut_raise {e : ErrCode} (h : v = setChan u d k) : SameBut d k (raise e v) (raise e u) := h ▸ rfl

theorem sameBut_ifConfigured {rest' rest : Result} (h : SameBut d k rest' rest) :
    SameBut d k (ifConfigured (setChan s d k) rest') (ifConfigured s rest) := by
  unfold ifConfigured
  rw [setChan_configured]
  split
  · exact h
  · exact sameBut_raise rfl

theorem sameBut_withRead {α : Type} {r : Except Fault α} {rest' rest : α → Result}
    (h : ∀ a, SameBut d k (rest' a) (rest a)) : SameBut d k (withRead r rest') (withRead r rest) := by
  cases r with
  | ok a => exact h a
  | error f => rfl

/-- A command on a channel other than `d`. -/
theorem sameBut_onChannel {ch : Byte} {rest' rest : Fin Config.nch → Result}
    (hd : some ch ≠ some (BitVec.ofNat 8 d.val)) (h : ∀ c, c ≠ d → SameBut d k (rest' c) (rest c)) :
    SameBut d k (ifConfigured (setChan s d k) (withChannel ch (setChan s d k) rest'))
      (ifConfigured s (withChannel ch s rest)) := by
  refine sameBut_ifConfigured ?_
  unfold withChannel
  split
  · exact h _ (channel_ne_of_operand_ne rfl hd)
  · exact sameBut_raise rfl

theorem setChan_comm {c : Fin Config.nch} (h : c ≠ d) (l : Channel) :
    setChan (setChan s d k) c l = setChan (setChan s c l) d k := by
  simp only [setChan]
  rw [Vector.set_comm _ _ (Fin.val_ne_of_ne h.symm)]

/-- Updating channel `c` by what it holds commutes with writing another. -/
theorem updateChan_comm {c : Fin Config.nch} (h : c ≠ d) (f : Channel → Channel) :
    setChan (setChan s d k) c (f (chanOf (setChan s d k) c)) = setChan (setChan s c (f (chanOf s c))) d k := by
  rw [chanOf_setChan_ne _ _ _ _ h.symm, setChan_comm h]

theorem latchTx_setChan_comm {c : Fin Config.nch} (h : c ≠ d) (f : Frame) :
    latchTx (setChan s d k) c f = setChan (latchTx s c f) d k :=
  updateChan_comm h fun l => { l with txf := some f, txValid := true }

theorem latchTel_setChan_comm {c : Fin Config.nch} (h : c ≠ d) (t : Telemetry) :
    latchTel (setChan s d k) c t = setChan (latchTel s c t) d k :=
  updateChan_comm h fun l => { l with tel := some t, telValid := true }

theorem dropTel_setChan_comm {c : Fin Config.nch} (h : c ≠ d) :
    dropTel (setChan s d k) c = setChan (dropTel s c) d k :=
  updateChan_comm h fun l => { l with telValid := false }

/-- What channel `d` holds is invisible to a command that does not name it. -/
theorem exec_setChan (i : Instr) (hi : isConfigure i = false)
    (hd : channelOperand i ≠ some (BitVec.ofNat 8 d.val)) : SameBut d k (exec i (setChan s d k)) (exec i s) := by
  cases i with
  | configure => cases hi
  | csInit => exact sameBut_ifConfigured (sameBut_ok rfl)
  | csByte => exact sameBut_ifConfigured (sameBut_withRead fun _ => sameBut_ok rfl)
  | encode =>
    exact sameBut_onChannel hd fun c hc => sameBut_withRead fun _ => sameBut_ok (latchTx_setChan_comm hc _)
  | encodeWheel =>
    refine sameBut_onChannel hd fun c hc => ?_
    rw [setChan_ktValid]
    split
    · exact sameBut_withRead fun _ => sameBut_withRead fun _ => sameBut_ok (latchTx_setChan_comm hc _)
    · exact sameBut_raise rfl
  | rxClear => exact sameBut_onChannel hd fun c hc => sameBut_ok (updateChan_comm hc _)
  | rxPush =>
    refine sameBut_onChannel hd fun c hc => ?_
    dsimp only
    rw [chanOf_setChan_ne _ _ _ _ hc.symm]
    exact sameBut_ok (setChan_comm hc _)
  | decode =>
    refine sameBut_onChannel hd fun c hc => ?_
    dsimp only
    rw [chanOf_setChan_ne _ _ _ _ hc.symm]
    split
    · exact sameBut_raise (dropTel_setChan_comm hc)
    split
    · exact sameBut_raise (dropTel_setChan_comm hc)
    refine sameBut_withRead fun g => sameBut_withRead fun f => ?_
    split
    · exact sameBut_raise (dropTel_setChan_comm hc)
    · exact sameBut_ok (latchTel_setChan_comm hc _)
  | solve =>
    refine sameBut_ifConfigured ?_
    split
    · refine sameBut_withRead fun g => ?_
      dsimp only
      split
      · exact sameBut_ok rfl
      · exact sameBut_raise rfl
    · exact sameBut_raise rfl

/-- Settles O22: running a command and writing a channel it does not name commute. -/
theorem otherChannelsContentsAreInvisible : Obligations.OtherChannelsContentsAreInvisible :=
  fun i s t d k h hi hd => by
    have same : exec i (setChan s d k) = mapNext (fun u => setChan u d k) (exec i s) := exec_setChan i hi hd
    rw [h] at same
    exact same

end Sys2Proof.Machine
end

section
/-! Reads of registers without a value (10_state.md R34), at the ports and in the commands. -/

namespace Sys2Proof.Machine

variable {s : State} {k : Channel}

theorem readConfig_none (h : s.cfg = none) : readConfig s = .error .noConfigValue := by
  simp [readConfig, h]

theorem readConfig_some {g : ConfigRegs} (h : s.cfg = some g) : readConfig s = .ok g := readConfig_ok_iff.mpr h

theorem readSetpoints_invalid (h : s.ktValid = false) : readSetpoints s = .error .noSetpointValue := by
  simp [readSetpoints, h]

theorem readSetpoints_none (h : s.kt = none) : readSetpoints s = .error .noSetpointValue := by
  simp [readSetpoints, h]

theorem readRx_above_count {i : Fin 10} (h : k.rxLen.toNat ≤ i.val) : readRx k i = .error .noRxByte :=
  if_neg (by omega)

/-- A read that can fail only for want of a received byte. -/
def OnlyNoRxByte {α : Type} (r : Except Fault α) : Prop := ∀ e, r = .error e → e = .noRxByte

theorem onlyNoRxByte_bind {α β : Type} {r : Except Fault α} {g : α → Except Fault β} (hr : OnlyNoRxByte r)
    (hg : ∀ a, OnlyNoRxByte (g a)) : OnlyNoRxByte (r >>= g) := by
  cases r with
  | ok a => exact hg a
  | error e => exact fun e' h => hr e' (by cases h; rfl)

theorem onlyNoRxByte_readRx (k : Channel) (i : Fin 10) : OnlyNoRxByte (readRx k i) := by
  intro e h
  unfold readRx at h
  split at h
  · split at h <;> cases h
    rfl
  · cases h
    rfl

theorem onlyNoRxByte_readRxFrame (k : Channel) : OnlyNoRxByte (readRxFrame k) := by
  unfold readRxFrame
  iterate 10 refine onlyNoRxByte_bind (onlyNoRxByte_readRx k _) fun _ => ?_
  exact fun _ h => by cases h

/-- A buffer with a byte missing reads as no frame. -/
theorem readRxFrame_missing (h : ∃ i : Fin 10, k.rxb[i] = none) : readRxFrame k = .error .noRxByte := by
  obtain ⟨i, hi⟩ := h
  cases hr : readRxFrame k with
  | ok f => simp [readRxFrame_ok hr i] at hi
  | error e => rw [onlyNoRxByte_readRxFrame k e hr]

theorem portTxf_invalid {c : Fin Config.nch} (h : (chanOf s c).txValid = false) : portTxf s c = .error .noTxFrame := by
  simp [portTxf, h]

theorem portTel_invalid {c : Fin Config.nch} (h : (chanOf s c).telValid = false) :
    portTel s c = .error .noTelemetry := by
  simp [portTel, h]

/-- Settles O14, port by port. -/
theorem portsFaultWhileInvalid : Obligations.PortsFaultWhileInvalid := fun _ _ _ _ =>
  ⟨portTxf_invalid, portTel_invalid,
    fun h => ⟨by rw [portWrad, readSetpoints_invalid h]; rfl, by rw [portWsp, readSetpoints_invalid h]; rfl⟩,
    readRx_above_count, readConfig_none⟩

/-! What a command on a configured block and a channel of it comes to. -/

theorem onChannel_pos {ch : Byte} {rest : Fin Config.nch → Result} (hc : s.configured = true)
    (h : ch.toNat < Config.nch) : ifConfigured s (withChannel ch s rest) = rest ⟨ch.toNat, h⟩ := by
  rw [ifConfigured_pos hc, withChannel_pos h]

/-- DECODE of 10 bytes is past both length checks, and reads the configuration and then the buffer (42_frame_codec.md
R157, R158). -/
theorem execDecode_full {ch : Byte} (hc : s.configured = true) (h : ch.toNat < Config.nch)
    (hl : (chanOf s ⟨ch.toNat, h⟩).rxLen = 10#8) :
    ∃ answer : ConfigRegs → Frame → Result, execDecode ch s =
      withRead (readConfig s) fun g => withRead (readRxFrame (chanOf s ⟨ch.toNat, h⟩)) (answer g) :=
  ⟨_, (onChannel_pos hc h).trans ((if_neg (by simp [hl])).trans (if_neg (by simp [hl])))⟩

/-- ENCODE_WHEEL with a setpoint valid reads the configuration and then the setpoints (42_frame_codec.md R153). -/
theorem execEncodeWheel_valid {ch mode : Byte} (hc : s.configured = true) (h : ch.toNat < Config.nch)
    (hv : s.ktValid = true) :
    execEncodeWheel ch mode s = withRead (readConfig s) fun g => withRead (readSetpoints s) fun kt =>
      let f := encodeFrame g.alg g.mid[ch.toNat] mode kt.wsp[ch.toNat] 0x00#8
      ok f.toList (latchTx s ⟨ch.toNat, h⟩ f) := by
  rw [execEncodeWheel, onChannel_pos hc h, if_pos hv]
  rfl

/-- Settles O15: each command comes to its first read of a register without value. -/
theorem readsWithoutValueAreFaults : Obligations.ReadsWithoutValueAreFaults := by
  intro s ch b mid mode accel vel vx vy wz h hc
  refine ⟨fun hnone => ?_, fun hsome hv hkt => ?_, fun hsome hl hmissing => ?_⟩
  · have noConfig {rest : ConfigRegs → Result} : withRead (readConfig s) rest = .fault .noConfigValue := by
      rw [readConfig_none hnone, withRead_error]
    exact ⟨(ifConfigured_pos hc).trans noConfig, (onChannel_pos hc h).trans noConfig,
      fun hv => (execEncodeWheel_valid hc h hv).trans noConfig,
      fun hl => have ⟨_, hdecode⟩ := execDecode_full hc h hl; hdecode.trans noConfig,
      fun hx hy hz => (ifConfigured_pos hc).trans ((if_pos (by simp [hx, hy, hz])).trans noConfig)⟩
  · obtain ⟨g, hg⟩ := Option.ne_none_iff_exists'.mp hsome
    refine (execEncodeWheel_valid hc h hv).trans ?_
    rw [readConfig_some hg, withRead_ok, readSetpoints_none hkt, withRead_error]
  · obtain ⟨g, hg⟩ := Option.ne_none_iff_exists'.mp hsome
    obtain ⟨answer, hdecode⟩ := execDecode_full hc h hl
    have missing : readRxFrame (chanOf s ⟨ch.toNat, h⟩) = .error .noRxByte := readRxFrame_missing hmissing
    refine hdecode.trans ?_
    rw [readConfig_some hg, withRead_ok, missing, withRead_error]

end Sys2Proof.Machine
end

section
/-! RX_PUSH (42_frame_codec.md R156). -/

namespace Sys2Proof.Machine

variable {s : State} {k : Channel}

/-- RX_PUSH with room for the byte. -/
theorem pushRx_of_lt_ten (b : Byte) (h : k.rxLen.toNat < 10) :
    pushRx k b = { k with rxb := k.rxb.set k.rxLen.toNat (some b), rxLen := k.rxLen + 1#8 } := by
  have hlt : k.rxLen < Config.rxLenMax := BitVec.lt_def.mpr (h.trans (by decide))
  rw [pushRx, dif_pos h, if_pos hlt]

/-- RX_PUSH that only counts the byte. -/
theorem pushRx_of_ge_ten (b : Byte) (h : 10 ≤ k.rxLen.toNat) (h' : k.rxLen.toNat < 255) :
    pushRx k b = { k with rxLen := k.rxLen + 1#8 } := by
  have hlt : k.rxLen < Config.rxLenMax := BitVec.lt_def.mpr h'
  rw [pushRx, dif_neg (Nat.not_lt.mpr h), if_pos hlt]

/-- RX_PUSH that drops the byte. -/
theorem pushRx_of_saturated (b : Byte) (h : k.rxLen.toNat = 255) : pushRx k b = k := by
  have hge : ¬k.rxLen < Config.rxLenMax := fun hlt => absurd (BitVec.lt_def.mp hlt) (h ▸ lt_irrefl _)
  rw [pushRx, dif_neg (by omega), if_neg hge]

theorem setChan_chanOf (s : State) (c : Fin Config.nch) : setChan s c (chanOf s c) = s := by
  simp [setChan, chanOf]

/-- The whole of an RX_PUSH, the channel's new content given. -/
theorem execRxPush_eq {ch b : Byte} {l : Channel} (hc : s.configured = true) (h : ch.toNat < Config.nch)
    (hl : pushRx (chanOf s ⟨ch.toNat, h⟩) b = l) :
    execRxPush ch b s = ok [l.rxLen] (setChan s ⟨ch.toNat, h⟩ l) := by
  rw [← hl]
  exact onChannel_pos hc h

/-- Settles O36, by the three ranges of the count. -/
theorem rxPushAppendsOneByte : Obligations.RxPushAppendsOneByte := fun s ch b h hc =>
  ⟨fun hn => execRxPush_eq hc h (pushRx_of_lt_ten b hn),
    fun hn hlt => execRxPush_eq hc h (pushRx_of_ge_ten b hn hlt),
    fun hn => by
      refine (execRxPush_eq hc h (pushRx_of_saturated b hn)).trans ?_
      have count : (chanOf s ⟨ch.toNat, h⟩).rxLen = 0xFF#8 := BitVec.eq_of_toNat_eq hn
      rw [setChan_chanOf, count]
      rfl⟩

end Sys2Proof.Machine
end

section
/-! One step of the block (20_memory.md R53). -/

namespace Sys2Proof.Machine

/-- Settles O5: the step runs the string it takes, and the string's run is its command's execution. -/
theorem stepRunsTheDecodedCommand : Obligations.StepRunsTheDecodedCommand := by
  intro s c rest i hinputs hdecode
  calc step s
      = runCommand c { s with inputs := rest } := step_command hinputs
    _ = exec i { s with inputs := rest } := runCommand_of_decode hdecode

end Sys2Proof.Machine
end

section
/-! Multi-byte operands and their bytes (20_memory.md R57, R59, R61): the two forms determine each other. -/

namespace Sys2Proof.Machine

variable {bytes rest : List Byte}

theorem bytes16_ofHiLo (hi lo : Byte) : bytes16 (ofHiLo hi lo) = [hi, lo] := by
  simp only [bytes16, hiByte, loByte, ofHiLo, BitVec.extractLsb'_append_eq_left, BitVec.extractLsb'_append_eq_right]

theorem ofHiLo_hiByte_loByte (v : Half) : ofHiLo (hiByte v) (loByte v) = v :=
  (BitVec.extractLsb'_append_extractLsb'_eq_extractLsb' rfl).trans BitVec.extractLsb'_eq_self

/-- The byte at bit `k` of a pattern is the byte at bit `k + 8` once another byte is appended. -/
theorem extractLsb'_append_byte (k : Nat) {n : Nat} (x : BitVec n) (b : Byte) :
    (x ++ b).extractLsb' (k + 8) 8 = x.extractLsb' k 8 := by
  rw [BitVec.extractLsb'_append_eq_of_le (by omega), Nat.add_sub_cancel]

theorem bytes64_append (b7 b6 b5 b4 b3 b2 b1 b0 : Byte) :
    bytes64 (b7 ++ b6 ++ b5 ++ b4 ++ b3 ++ b2 ++ b1 ++ b0) = [b7, b6, b5, b4, b3, b2, b1, b0] := by
  simp only [bytes64, extractLsb'_append_byte 0, extractLsb'_append_byte 8, extractLsb'_append_byte 16,
    extractLsb'_append_byte 24, extractLsb'_append_byte 32, extractLsb'_append_byte 40, extractLsb'_append_byte 48,
    BitVec.extractLsb'_append_eq_right, BitVec.extractLsb'_eq_self]

theorem append_of_bytes64 (v : F64) :
    (v.extractLsb' 56 8 ++ v.extractLsb' 48 8 ++ v.extractLsb' 40 8 ++ v.extractLsb' 32 8 ++ v.extractLsb' 24 8 ++
      v.extractLsb' 16 8 ++ v.extractLsb' 8 8 ++ v.extractLsb' 0 8 : F64) = v := by
  have join (k n : Nat) : v.extractLsb' (k + 8) n ++ v.extractLsb' k 8 = v.extractLsb' k (n + 8) :=
    BitVec.extractLsb'_append_extractLsb'_eq_extractLsb' rfl
  rw [join 48 8, join 40 16, join 32 24, join 24 32, join 16 40, join 8 48, join 0 56]
  exact BitVec.extractLsb'_eq_self

/-! Taking an operand off the front of a string, and finding one there by the string's length. -/

theorem takeHalf_eq_some_iff {v : Half} : takeHalf bytes = some (v, rest) ↔ bytes = bytes16 v ++ rest := by
  constructor
  · intro h
    match bytes, h with
    | hi :: lo :: _, h =>
      obtain ⟨rfl, rfl⟩ := Prod.mk.inj (Option.some.inj h)
      rw [bytes16_ofHiLo]
      rfl
  · rintro rfl
    exact congrArg (fun w => some (w, rest)) (ofHiLo_hiByte_loByte v)

theorem takeF64_eq_some_iff {v : F64} : takeF64 bytes = some (v, rest) ↔ bytes = bytes64 v ++ rest := by
  constructor
  · intro h
    match bytes, h with
    | b7 :: b6 :: b5 :: b4 :: b3 :: b2 :: b1 :: b0 :: _, h =>
      obtain ⟨rfl, rfl⟩ := Prod.mk.inj (Option.some.inj h)
      rw [bytes64_append]
      rfl
  · rintro rfl
    exact congrArg (fun w => some (w, rest)) (append_of_bytes64 v)

theorem exists_bytes64_append {n : Nat} (h : bytes.length = n + 8) :
    ∃ v rest, bytes = bytes64 v ++ rest ∧ rest.length = n := by
  match bytes, h with
  | b7 :: b6 :: b5 :: b4 :: b3 :: b2 :: b1 :: b0 :: rest, h =>
    exact ⟨b7 ++ b6 ++ b5 ++ b4 ++ b3 ++ b2 ++ b1 ++ b0, rest, by rw [bytes64_append]; rfl, by simpa using h⟩

end Sys2Proof.Machine
end

section
/-! Decoding and encoding (30_encoding.md R80 to R83): a string decodes to a command exactly when it is the command's
encoding. -/

namespace Sys2Proof

open Sys2Proof.Machine

variable {op : Byte} {operands c : List Byte} {i : Instr} {parse : List Byte → Option Instr}

/-! What each operand parser accepts: the encodings of its own command, without their op code. -/

theorem parseConfigure_eq_some_iff : parseConfigure operands = some i ↔
    ∃ alg hl hw radius rated midmask mid0 mid1 mid2 mid3,
      0x01#8 :: operands = encode (.configure alg hl hw radius rated midmask mid0 mid1 mid2 mid3) ∧
      .configure alg hl hw radius rated midmask mid0 mid1 mid2 mid3 = i := by
  simp [parseConfigure, encode, Option.bind_eq_some_iff, takeByte_eq_some_iff, takeF64_eq_some_iff]

theorem parseCsInit_eq_some_iff : parseCsInit operands = some i ↔ 0x10#8 :: operands = encode .csInit ∧ .csInit = i := by
  simp [parseCsInit, encode]

theorem parseCsByte_eq_some_iff : parseCsByte operands = some i ↔
    ∃ b, 0x11#8 :: operands = encode (.csByte b) ∧ .csByte b = i := by
  simp [parseCsByte, encode, Option.bind_eq_some_iff, takeByte_eq_some_iff]

theorem parseEncode_eq_some_iff : parseEncode operands = some i ↔
    ∃ ch mid mode vel accel,
      0x20#8 :: operands = encode (.encode ch mid mode vel accel) ∧ .encode ch mid mode vel accel = i := by
  simp [parseEncode, encode, Option.bind_eq_some_iff, takeByte_eq_some_iff, takeHalf_eq_some_iff]

theorem parseEncodeWheel_eq_some_iff : parseEncodeWheel operands = some i ↔
    ∃ ch mode, 0x21#8 :: operands = encode (.encodeWheel ch mode) ∧ .encodeWheel ch mode = i := by
  simp [parseEncodeWheel, encode, Option.bind_eq_some_iff, takeByte_eq_some_iff]

theorem parseRxClear_eq_some_iff : parseRxClear operands = some i ↔
    ∃ ch, 0x30#8 :: operands = encode (.rxClear ch) ∧ .rxClear ch = i := by
  simp [parseRxClear, encode, Option.bind_eq_some_iff, takeByte_eq_some_iff]

theorem parseRxPush_eq_some_iff : parseRxPush operands = some i ↔
    ∃ ch b, 0x31#8 :: operands = encode (.rxPush ch b) ∧ .rxPush ch b = i := by
  simp [parseRxPush, encode, Option.bind_eq_some_iff, takeByte_eq_some_iff]

theorem parseDecode_eq_some_iff_encode : parseDecode operands = some i ↔
    ∃ ch, 0x32#8 :: operands = encode (.decode ch) ∧ .decode ch = i := by
  simp [parseDecode, encode, Option.bind_eq_some_iff, takeByte_eq_some_iff]

theorem parseSolve_eq_some_iff : parseSolve operands = some i ↔
    ∃ vx vy wz, 0x40#8 :: operands = encode (.solve vx vy wz) ∧ .solve vx vy wz = i := by
  simp [parseSolve, encode, Option.bind_eq_some_iff, takeF64_eq_some_iff]

/-- Whatever an op code's parser accepts, with the op code in front, is the encoding of the command it gives. -/
theorem eq_encode_of_operandParser (hp : operandParser op = some parse) (h : parse operands = some i) :
    op :: operands = encode i := by
  unfold operandParser at hp
  split_ifs at hp with hop hop hop hop hop hop hop hop hop
  all_goals
    subst hop
    obtain rfl := Option.some.inj hp
  · obtain ⟨_, _, _, _, _, _, _, _, _, _, hc, rfl⟩ := parseConfigure_eq_some_iff.mp h
    exact hc
  · obtain ⟨hc, rfl⟩ := parseCsInit_eq_some_iff.mp h
    exact hc
  · obtain ⟨_, hc, rfl⟩ := parseCsByte_eq_some_iff.mp h
    exact hc
  · obtain ⟨_, _, _, _, _, hc, rfl⟩ := parseEncode_eq_some_iff.mp h
    exact hc
  · obtain ⟨_, _, hc, rfl⟩ := parseEncodeWheel_eq_some_iff.mp h
    exact hc
  · obtain ⟨_, hc, rfl⟩ := parseRxClear_eq_some_iff.mp h
    exact hc
  · obtain ⟨_, _, hc, rfl⟩ := parseRxPush_eq_some_iff.mp h
    exact hc
  · obtain ⟨_, hc, rfl⟩ := parseDecode_eq_some_iff_encode.mp h
    exact hc
  · obtain ⟨_, _, _, hc, rfl⟩ := parseSolve_eq_some_iff.mp h
    exact hc

/-! The two directions. -/

theorem decode_eq_ok_iff_parse : decode c = .ok i ↔
    ∃ op operands parse, c = op :: operands ∧ operandParser op = some parse ∧ parse operands = some i := by
  match c with
  | [] => simp [decode]
  | op :: operands =>
    cases hp : operandParser op with
    | none => simp [decode, hp]
    | some parse => cases hi : parse operands <;> simp [decode, hp, hi]

theorem decode_of_parse (hp : operandParser op = some parse) (h : parse operands = some i) :
    decode (op :: operands) = .ok i :=
  decode_eq_ok_iff_parse.mpr ⟨op, operands, parse, rfl, hp, h⟩

/-- Settles O1: each command's op code selects its own parser, which accepts the operands as the encoder writes them. -/
theorem decodeOfEncodeIsTheCommand : Obligations.DecodeOfEncodeIsTheCommand := by
  intro i
  cases i with
  | configure =>
    exact decode_of_parse rfl (parseConfigure_eq_some_iff.mpr ⟨_, _, _, _, _, _, _, _, _, _, rfl, rfl⟩)
  | csInit => exact decode_of_parse rfl (parseCsInit_eq_some_iff.mpr ⟨rfl, rfl⟩)
  | csByte => exact decode_of_parse rfl (parseCsByte_eq_some_iff.mpr ⟨_, rfl, rfl⟩)
  | encode => exact decode_of_parse rfl (parseEncode_eq_some_iff.mpr ⟨_, _, _, _, _, rfl, rfl⟩)
  | encodeWheel => exact decode_of_parse rfl (parseEncodeWheel_eq_some_iff.mpr ⟨_, _, rfl, rfl⟩)
  | rxClear => exact decode_of_parse rfl (parseRxClear_eq_some_iff.mpr ⟨_, rfl, rfl⟩)
  | rxPush => exact decode_of_parse rfl (parseRxPush_eq_some_iff.mpr ⟨_, _, rfl, rfl⟩)
  | decode => exact decode_of_parse rfl (parseDecode_eq_some_iff_encode.mpr ⟨_, rfl, rfl⟩)
  | solve => exact decode_of_parse rfl (parseSolve_eq_some_iff.mpr ⟨_, _, _, rfl, rfl⟩)

/-- Settles O2: a parser accepts nothing but its command's operands as the encoder writes them. -/
theorem encodeOfDecodeIsTheString : Obligations.EncodeOfDecodeIsTheString := by
  intro c i h
  obtain ⟨op, operands, parse, rfl, hp, hi⟩ := decode_eq_ok_iff_parse.mp h
  exact (eq_encode_of_operandParser hp hi).symm

theorem decode_of_encode_eq (h : encode i = c) : decode c = .ok i := h ▸ decodeOfEncodeIsTheCommand i

/-- Settles O4: each string is the encoding of its command. -/
theorem specWordsDecodeToTheirCommands : Obligations.SpecWordsDecodeToTheirCommands :=
  ⟨decode_of_encode_eq rfl, decode_of_encode_eq rfl, decode_of_encode_eq rfl, decode_of_encode_eq rfl,
    decode_of_encode_eq rfl, decode_of_encode_eq rfl, decode_of_encode_eq rfl, decode_of_encode_eq rfl,
    decode_of_encode_eq rfl⟩

/-! The strings with a listed op code and its length are the encodings (R81, R83). -/

theorem wellFormedCommand_encode (i : Instr) : wellFormedCommand (encode i) = true := by
  cases i with
  | configure => exact Laws.Encoding.configure ..
  | csInit => exact Laws.Encoding.csInit
  | csByte => exact Laws.Encoding.csByte _
  | encode => exact Laws.Encoding.encode ..
  | encodeWheel => exact Laws.Encoding.encodeWheel ..
  | rxClear => exact Laws.Encoding.rxClear _
  | rxPush => exact Laws.Encoding.rxPush ..
  | decode => exact Laws.Encoding.decode _
  | solve => exact Laws.Encoding.solve ..

theorem exists_encode_configure (h : operands.length = 38) : ∃ i, encode i = 0x01#8 :: operands := by
  obtain ⟨alg, r₁, rfl⟩ := List.exists_cons_of_length_eq_add_one h
  obtain ⟨hl, r₂, rfl, h₂⟩ := exists_bytes64_append (Nat.succ.inj h)
  obtain ⟨hw, r₃, rfl, h₃⟩ := exists_bytes64_append h₂
  obtain ⟨radius, r₄, rfl, h₄⟩ := exists_bytes64_append h₃
  obtain ⟨rated, r₅, rfl, h₅⟩ := exists_bytes64_append h₄
  match r₅, h₅ with
  | [midmask, mid0, mid1, mid2, mid3], _ =>
    exact ⟨.configure alg hl hw radius rated midmask mid0 mid1 mid2 mid3, rfl⟩

theorem exists_encode_encode (h : operands.length = 6) : ∃ i, encode i = 0x20#8 :: operands := by
  match operands, h with
  | [ch, mid, mode, hi, lo, accel], _ =>
    refine ⟨.encode ch mid mode (ofHiLo hi lo) accel, ?_⟩
    rw [encode, bytes16_ofHiLo]
    rfl

theorem exists_encode_solve (h : operands.length = 24) : ∃ i, encode i = 0x40#8 :: operands := by
  obtain ⟨vx, r₁, rfl, h₁⟩ := exists_bytes64_append h
  obtain ⟨vy, r₂, rfl, h₂⟩ := exists_bytes64_append h₁
  obtain ⟨wz, r₃, rfl, h₃⟩ := exists_bytes64_append h₂
  obtain rfl := List.length_eq_zero_iff.mp h₃
  exact ⟨.solve vx vy wz, by simp [encode]⟩

theorem wellFormedCommand_cons_iff :
    wellFormedCommand (op :: operands) = true ↔ commandLength op = some (operands.length + 1) := beq_iff_eq

/-- A string as long as its op code asks is an encoding: its bytes are the fields of some operands. -/
theorem exists_encode_of_commandLength (h : commandLength op = some (operands.length + 1)) :
    ∃ i, encode i = op :: operands := by
  unfold commandLength at h
  split at h
  case h_10 => cases h
  all_goals
    rename_i hop
    obtain ⟨-, rfl⟩ := BitVec.toNat_eq_nat.mp hop
    replace h := Nat.succ.inj (Option.some.inj h.symm)
  · exact exists_encode_configure h
  · obtain rfl := List.length_eq_zero_iff.mp h
    exact ⟨.csInit, rfl⟩
  · obtain ⟨b, rfl⟩ := List.length_eq_one_iff.mp h
    exact ⟨.csByte b, rfl⟩
  · exact exists_encode_encode h
  · obtain ⟨ch, mode, rfl⟩ := List.length_eq_two.mp h
    exact ⟨.encodeWheel ch mode, rfl⟩
  · obtain ⟨ch, rfl⟩ := List.length_eq_one_iff.mp h
    exact ⟨.rxClear ch, rfl⟩
  · obtain ⟨ch, b, rfl⟩ := List.length_eq_two.mp h
    exact ⟨.rxPush ch b, rfl⟩
  · obtain ⟨ch, rfl⟩ := List.length_eq_one_iff.mp h
    exact ⟨.decode ch, rfl⟩
  · exact exists_encode_solve h

/-- Settles O3: the strings of either kind are the encodings. -/
theorem wellFormedStringsAreThoseThatDecode : Obligations.WellFormedStringsAreThoseThatDecode := by
  intro c
  constructor
  · intro h
    match c with
    | op :: operands =>
      obtain ⟨i, hi⟩ := exists_encode_of_commandLength (wellFormedCommand_cons_iff.mp h)
      exact ⟨i, decode_of_encode_eq hi⟩
  · rintro ⟨i, h⟩
    rw [← encodeOfDecodeIsTheString c i h]
    exact wellFormedCommand_encode i

end Sys2Proof
end

section
/-! Commands on a channel (30_encoding.md R82, 42_frame_codec.md): BAD_CHANNEL, ENCODE and DECODE. -/

namespace Sys2Proof.Machine

variable {s : State} {g : ConfigRegs} {ch : Byte} {f : Frame}

theorem onChannel_badChannel {rest : Fin Config.nch → Result} (hc : s.configured = true) (h : Config.nch ≤ ch.toNat) :
    ifConfigured s (withChannel ch s rest) = raise .badChannel s := by
  rw [ifConfigured_pos hc, withChannel_neg h]

/-- Settles O17: every command with a channel operand checks it right after `CONFIGURED`. -/
theorem badChannelIsRaisedFirst : Obligations.BadChannelIsRaisedFirst := by
  intro s i ch hc hi h
  cases i with
  | configure | csInit | csByte | solve => cases hi
  | encode | encodeWheel | rxClear | rxPush | decode =>
    obtain rfl := Option.some.inj hi
    exact onChannel_badChannel hc h

theorem execEncode_configured {mid mode accel : Byte} {vel : Half} (hc : s.configured = true) (hg : s.cfg = some g)
    (h : ch.toNat < Config.nch) : execEncode ch mid mode vel accel s =
      ok (encodeFrame g.alg mid mode vel accel).toList
        (latchTx s ⟨ch.toNat, h⟩ (encodeFrame g.alg mid mode vel accel)) := by
  rw [execEncode, onChannel_pos hc h, readConfig_some hg, withRead_ok]

/-- Settles O32: ENCODE latches and answers `encode_A` of its operands. -/
theorem encodeBuildsTheRequestFrame : Obligations.EncodeBuildsTheRequestFrame :=
  fun _ _ _ _ _ _ _ h hc hg => execEncode_configured hc hg h

theorem checkResponse_of_verifies {alg : Alg} (h : frameVerifies alg f = true) :
    checkResponse alg f = .ok (telemetry f) := checkResponse_ok_iff.mpr ⟨h, rfl⟩

/-- DECODE of a buffer of 10 bytes that verifies answers and latches its telemetry (42_frame_codec.md R157). -/
theorem execDecode_verified (hc : s.configured = true) (hg : s.cfg = some g) (h : ch.toNat < Config.nch)
    (hl : (chanOf s ⟨ch.toNat, h⟩).rxLen = 10#8) (hb : (chanOf s ⟨ch.toNat, h⟩).rxb = f.map some)
    (hv : frameVerifies g.alg f = true) :
    execDecode ch s = ok (telemetryBytes (telemetry f)) (latchTel s ⟨ch.toNat, h⟩ (telemetry f)) := by
  have hread : readRxFrame (chanOf s ⟨ch.toNat, h⟩) = .ok f := readRxFrame_full (by simp [hl]) hb
  refine (onChannel_pos hc h).trans ((if_neg (by simp [hl])).trans ((if_neg (by simp [hl])).trans ?_))
  rw [readConfig_some hg, withRead_ok, hread, withRead_ok, checkResponse_of_verifies hv]

/-- The bytes of a position, as the quotient and the remainder by 256 of its degrees (30_encoding.md R84). -/
theorem bytes16_positionDegrees (p : Byte) : bytes16 ((positionDegrees p).setWidth 16) =
    [BitVec.ofNat 8 (p.toNat * 360 / 255 / 256), BitVec.ofNat 8 (p.toNat * 360 / 255 % 256)] := by
  have hn : p.toNat * 360 / 255 < 2 ^ 9 := by have hp := p.isLt; omega
  rw [positionDegrees]
  generalize p.toNat * 360 / 255 = n at hn
  have high : hiByte ((BitVec.ofNat 9 n).setWidth 16) = BitVec.ofNat 8 (n / 256) :=
    BitVec.eq_of_toNat_eq (by
      simp only [hiByte, BitVec.extractLsb'_toNat, BitVec.toNat_setWidth, BitVec.toNat_ofNat,
        Nat.shiftRight_eq_div_pow]
      omega)
  have low : loByte ((BitVec.ofNat 9 n).setWidth 16) = BitVec.ofNat 8 (n % 256) :=
    BitVec.eq_of_toNat_eq (by simp [loByte])
  rw [bytes16, high, low]

theorem telemetryBytes_telemetry (f : Frame) : telemetryBytes (telemetry f) =
    [f[0], f[1], f[2], f[3], f[4], f[5], f[6], BitVec.ofNat 8 (f[7].toNat * 360 / 255 / 256),
      BitVec.ofNat 8 (f[7].toNat * 360 / 255 % 256), f[8]] := by
  simp [telemetryBytes, telemetry, bytes16_ofHiLo, bytes16_positionDegrees]

theorem frameBody_eq (f : Frame) : frameBody f = [f[0], f[1], f[2], f[3], f[4], f[5], f[6], f[7], f[8]] := by
  obtain ⟨⟨bytes⟩, hlength⟩ := f
  match bytes, hlength with
  | [_, _, _, _, _, _, _, _, _, _], _ => rfl

/-- Settles O39: the buffer reads as `f`, which verifies, and its telemetry is written out field by field. -/
theorem decodeLatchesTelemetry : Obligations.DecodeLatchesTelemetry := by
  intro s g ch f h hc hg hl hb hsum
  have hv : frameVerifies g.alg f = true := beq_iff_eq.mpr ((frameBody_eq f).symm ▸ hsum)
  refine (execDecode_verified hc hg h hl hb hv).trans ?_
  rw [telemetryBytes_telemetry]
  rfl

end Sys2Proof.Machine
end

section
/-! The reserved bits of CONFIGURE's mask (30_encoding.md R82). -/

namespace Sys2Proof.Machine

/-- Validation reads the mask through bits 3:0 alone. -/
theorem configValid_and_mask (v : F64) (alg : Byte) (hl hw radius rated : F64) (midmask : Byte) :
    configValid v alg hl hw radius rated (midmask &&& 0x0F#8) = configValid v alg hl hw radius rated midmask := by
  have idem : midmask &&& 0x0F#8 &&& 0x0F#8 = midmask &&& 0x0F#8 := by rw [BitVec.and_assoc, BitVec.and_self]
  rw [configValid, configValid, idem]

/-- Settles O48: CONFIGURE uses the mask in its validation only. -/
theorem configureIgnoresTheReservedMaskBits : Obligations.ConfigureIgnoresTheReservedMaskBits := by
  intro s alg hl hw radius rated midmask mid0 mid1 mid2 mid3
  simp only [exec, execConfigure, configValid_and_mask]

end Sys2Proof.Machine
end

section
/-! The pseudo-commands of the assembler (30_encoding.md R87). -/

namespace Sys2Proof.Machine

/-- Settles O58: an absent `accel` is read as 0, and a byte operand stands for one command. -/
theorem pseudoCommandsExpand : Obligations.PseudoCommandsExpand :=
  ⟨fun _ _ _ _ => rfl, fun _ _ => congrArg _ List.map_eq_flatMap, fun _ => congrArg _ List.map_eq_flatMap⟩

end Sys2Proof.Machine
end

section
/-! The laws of the checksum functions (40_checksum.md R101 to R103, R107). Either step puts the exclusive-or of
accumulator and byte through one map, `checksumMix`, which is linear over exclusive-or and injective; the laws follow
from these two facts. -/

namespace Sys2Proof.Machine

variable {alg : Alg} {acc : Byte} {l : List Byte}

/-! ### One step -/

theorem crcShift_eq (r : Byte) : crcShift r = r <<< 1 ^^^ if r.getLsbD 7 then Config.crcPoly else 0#8 := by
  unfold crcShift
  split
  · rfl
  · rw [BitVec.xor_zero]

theorem crcShift_xor (a b : Byte) : crcShift (a ^^^ b) = crcShift a ^^^ crcShift b := by
  have poly : (if (a ^^^ b).getLsbD 7 then Config.crcPoly else 0#8) =
      (if a.getLsbD 7 then Config.crcPoly else 0#8) ^^^ if b.getLsbD 7 then Config.crcPoly else 0#8 := by
    rw [BitVec.getLsbD_xor]
    cases a.getLsbD 7 <;> cases b.getLsbD 7 <;> rfl
  rw [crcShift_eq, crcShift_eq a, crcShift_eq b, poly, BitVec.shiftLeft_xor_distrib]
  ac_rfl

/-- The polynomial is odd, so the bit shifted out comes back as bit 0. -/
theorem getLsbD_zero_crcShift (r : Byte) : (crcShift r).getLsbD 0 = r.getLsbD 7 := by
  rw [crcShift_eq, BitVec.getLsbD_xor, BitVec.getLsbD_shiftLeft]
  cases r.getLsbD 7 <;> rfl

/-- Bit 0 of the result says whether the polynomial was added, and what is shifted has bits 6:0 of the operand. -/
theorem crcShift_injective : Function.Injective crcShift := by
  intro a b h
  have top : a.getLsbD 7 = b.getLsbD 7 := by rw [← getLsbD_zero_crcShift, h, getLsbD_zero_crcShift]
  have shifted : a <<< 1 = b <<< 1 := by
    rw [crcShift_eq, crcShift_eq, top] at h
    exact (BitVec.xor_left_inj _).mp h
  refine BitVec.eq_of_getLsbD_eq fun i hi => ?_
  obtain rfl | hlow : i = 7 ∨ i + 1 < 8 := by omega
  · exact top
  · have bit (r : Byte) : (r <<< 1).getLsbD (i + 1) = r.getLsbD i := by
      rw [BitVec.getLsbD_shiftLeft]
      simp [hlow]
    rw [← bit a, shifted, bit]

/-- What a step does to the exclusive-or of accumulator and byte: under XOR nothing, under CRC8 eight shifts. -/
def checksumMix : Alg → Byte → Byte
  | .xor => id
  | .crc8 => crcShift^[8]

theorem checksumStep_eq (alg : Alg) (acc b : Byte) : checksumStep alg acc b = checksumMix alg (acc ^^^ b) := by
  cases alg <;> rfl

theorem checksumMix_xor (alg : Alg) (a b : Byte) :
    checksumMix alg (a ^^^ b) = checksumMix alg a ^^^ checksumMix alg b := by
  cases alg with
  | xor => rfl
  | crc8 => exact Function.Semiconj₂.iterate crcShift_xor 8 a b

theorem checksumMix_injective (alg : Alg) : Function.Injective (checksumMix alg) := by
  cases alg with
  | xor => exact Function.injective_id
  | crc8 => exact crcShift_injective.iterate 8

theorem checksumMix_zero (alg : Alg) : checksumMix alg 0x00#8 = 0x00#8 := by
  cases alg <;> rfl

theorem checksumStep_eq_zero_iff {b : Byte} : checksumStep alg acc b = 0x00#8 ↔ acc = b := by
  rw [checksumStep_eq, ← checksumMix_zero alg, (checksumMix_injective alg).eq_iff, BitVec.xor_eq_zero_iff]

theorem checksumStep_left_inj {a a' b : Byte} : checksumStep alg a b = checksumStep alg a' b ↔ a = a' := by
  rw [checksumStep_eq, checksumStep_eq, (checksumMix_injective alg).eq_iff, BitVec.xor_left_inj]

theorem checksumStep_right_inj {b b' : Byte} : checksumStep alg acc b = checksumStep alg acc b' ↔ b = b' := by
  rw [checksumStep_eq, checksumStep_eq, (checksumMix_injective alg).eq_iff, BitVec.xor_right_inj]

/-! ### Sequences -/

theorem checksum_concat (alg : Alg) (s : List Byte) (b : Byte) :
    checksum alg (s ++ [b]) = checksumStep alg (checksum alg s) b := by
  simp [checksum]

/-- A sequence with one more byte has checksum 0 exactly when that byte is its checksum (R106, R107 law 1). -/
theorem checksum_concat_eq_zero_iff {s : List Byte} {b : Byte} :
    checksum alg (s ++ [b]) = 0x00#8 ↔ checksum alg s = b := by
  rw [checksum_concat, checksumStep_eq_zero_iff]

/-- Settles O27: a step is 0 exactly where accumulator and byte agree, for the last byte as for a leading zero. -/
theorem honestChecksumsAlwaysVerify : Obligations.HonestChecksumsAlwaysVerify := by
  intro alg s
  have leadingZero : checksumStep alg Config.checksumInit 0x00#8 = Config.checksumInit :=
    checksumStep_eq_zero_iff.mpr rfl
  exact ⟨by rw [List.dropLast_concat], checksum_concat_eq_zero_iff.mpr rfl,
    by rw [checksum, List.foldl_cons, leadingZero, checksum]⟩

theorem checksumStep_xor (alg : Alg) (a b x y : Byte) :
    checksumStep alg (a ^^^ b) (x ^^^ y) = checksumStep alg a x ^^^ checksumStep alg b y := by
  rw [checksumStep_eq, checksumStep_eq, checksumStep_eq, ← checksumMix_xor]
  congr 1
  ac_rfl

theorem foldl_checksumStep_zipWith_xor (alg : Alg) (a b : Byte) {s e : List Byte} (h : s.length = e.length) :
    (List.zipWith (fun x y => x ^^^ y) s e).foldl (checksumStep alg) (a ^^^ b) =
      s.foldl (checksumStep alg) a ^^^ e.foldl (checksumStep alg) b := by
  induction s generalizing a b e with
  | nil =>
    obtain rfl := List.length_eq_zero_iff.mp h.symm
    rfl
  | cons x s ih =>
    obtain ⟨y, e, rfl⟩ := List.exists_cons_of_length_eq_add_one h.symm
    rw [List.zipWith_cons_cons, List.foldl_cons, checksumStep_xor, ih _ _ (Nat.succ.inj h), List.foldl_cons,
      List.foldl_cons]

/-- Settles O28: both folds start from 0, which is 0 exclusive-or 0. -/
theorem checksumsAreLinear : Obligations.ChecksumsAreLinear := fun alg _ _ h =>
  foldl_checksumStep_zipWith_xor alg Config.checksumInit Config.checksumInit h

theorem xorChecksum_perm {s t : List Byte} (h : s.Perm t) : checksum .xor s = checksum .xor t :=
  have : RightCommutative (checksumStep .xor) := ⟨fun a x y => show a ^^^ x ^^^ y = a ^^^ y ^^^ x by ac_rfl⟩
  h.foldl_eq _

/-- Settles O30: bytes commute under exclusive-or, and CRC8 is evaluated on the spec's two sequences. -/
theorem xorIgnoresOrderAndCrc8DoesNot : Obligations.XorIgnoresOrderAndCrc8DoesNot :=
  ⟨fun _ _ => xorChecksum_perm, by decide +kernel, by decide +kernel⟩

/-! ### Changed bytes -/

/-- Later bytes never undo a difference in the accumulator. -/
theorem foldl_checksumStep_injective (alg : Alg) (l : List Byte) :
    Function.Injective fun acc => l.foldl (checksumStep alg) acc := by
  induction l with
  | nil => exact Function.injective_id
  | cons b l ih => exact fun _ _ h => checksumStep_left_inj.mp (ih h)

/-- Changing one byte to another value changes the checksum, of a sequence of any length (R107 law 5). -/
theorem checksum_set_eq_iff {i : Nat} (hi : i < l.length) {b : Byte} :
    checksum alg (l.set i b) = checksum alg l ↔ b = l[i] := by
  refine ⟨fun h => ?_, fun h => by rw [h, List.set_getElem_self]⟩
  have fold_around (x : Byte) : checksum alg (l.set i x) =
      (l.drop (i + 1)).foldl (checksumStep alg) (checksumStep alg (checksum alg (l.take i)) x) := by
    rw [List.set_eq_take_append_cons_drop, if_pos hi, checksum, List.foldl_append, List.foldl_cons, checksum]
  rw [← List.set_getElem_self hi, fold_around, List.set_set, fold_around] at h
  exact checksumStep_right_inj.mp (foldl_checksumStep_injective alg _ h)

/-- Under XOR a byte counts the same wherever it stands. -/
theorem xorChecksum_set_eraseIdx {i : Nat} (hi : i < l.length) (b : Byte) :
    checksum .xor (l.set i b) = checksum .xor (l.eraseIdx i) ^^^ b :=
  calc checksum .xor (l.set i b)
      = checksum .xor (b :: l.eraseIdx i) := xorChecksum_perm (List.set_perm_cons_eraseIdx hi b)
    _ = checksum .xor (l.eraseIdx i ++ [b]) := xorChecksum_perm (List.perm_append_singleton b _).symm
    _ = checksum .xor (l.eraseIdx i) ^^^ b := checksum_concat .xor _ b

/-- Under XOR a changed byte shows as its difference and nothing else. -/
theorem xorChecksum_set {i : Nat} (hi : i < l.length) (e : Byte) :
    checksum .xor (l.set i (l[i] ^^^ e)) = checksum .xor l ^^^ e := by
  have unchanged : checksum .xor l = checksum .xor (l.eraseIdx i) ^^^ l[i] := by
    rw [← xorChecksum_set_eraseIdx hi, List.set_getElem_self]
  rw [xorChecksum_set_eraseIdx hi, unchanged, BitVec.xor_assoc]

end Sys2Proof.Machine
end

section
/-! Changed bytes in frames and responses (40_checksum.md R106, R107, 42_frame_codec.md R158 to R162): a frame verifies
exactly when its ten bytes together have checksum 0, so the laws of sequences apply to the whole frame. -/

namespace Sys2Proof.Machine

variable {alg : Alg} {f : Frame}

theorem frameVerifies_iff_checksum_eq_zero : frameVerifies alg f = true ↔ checksum alg f.toList = 0x00#8 := by
  have bytes : f.toList = f.toList.take 9 ++ [f[9]] := by
    rw [← Vector.getElem_toList (by simp), List.take_append_getElem, List.take_of_length_le (by simp)]
  rw [frameVerifies_iff, bytes, checksum_concat_eq_zero_iff]
  simp

theorem checksum_toList_set_eq_iff {i : Fin 10} {b : Byte} :
    checksum alg (f.set i b).toList = checksum alg f.toList ↔ b = f[i] := by
  rw [Vector.toList_set, checksum_set_eq_iff (by simp)]
  simp

/-- Settles O29: the ten bytes no longer have checksum 0, the checksum byte being one of them. -/
theorem singleByteErrorsAreDetected : Obligations.SingleByteErrorsAreDetected := by
  intro alg f i b hf hb
  rw [← Bool.not_eq_true, frameVerifies_iff_checksum_eq_zero]
  rw [frameVerifies_iff_checksum_eq_zero] at hf
  exact fun h => hb (checksum_toList_set_eq_iff.mp (h.trans hf.symm))

theorem xorChecksum_toList_set (f : Frame) (i : Fin 10) (e : Byte) :
    checksum .xor (f.set i (f[i] ^^^ e)).toList = checksum .xor f.toList ^^^ e := by
  rw [Vector.toList_set, ← xorChecksum_set (i := i) (by simp)]
  simp

/-- Settles O31: each of the two changes adds the same difference to the checksum of the ten bytes. -/
theorem xorMissesCancellingErrors : Obligations.XorMissesCancellingErrors := by
  intro f i j e hij hf
  have other : (f.set i (f[i] ^^^ e))[j] = f[j] := Vector.getElem_set_ne _ _ (Fin.val_ne_of_ne hij)
  rw [frameVerifies_iff_checksum_eq_zero] at hf ⊢
  rw [← other, xorChecksum_toList_set, xorChecksum_toList_set, BitVec.xor_assoc, BitVec.xor_self, BitVec.xor_zero,
    hf]

/-! ### Byte sequences as responses -/

theorem decodeFrame_of_lt_ten {buf : List Byte} (h : buf.length < 10) : decodeFrame alg buf = .error .shortRead :=
  if_pos h

theorem decodeFrame_of_gt_ten {buf : List Byte} (h : 10 < buf.length) :
    decodeFrame alg buf = .error .malformedLength := by
  rw [decodeFrame, if_neg (by omega), dif_neg (by omega)]

theorem decodeFrame_toList (alg : Alg) (f : Frame) : decodeFrame alg f.toList = checkResponse alg f := by
  rw [decodeFrame, if_neg (by simp), dif_pos (by simp)]
  rfl

/-- Settles O43: a changed byte is met by the checksum, a changed length before it. -/
theorem corruptedResponsesNeverDecode : Obligations.CorruptedResponsesNeverDecode := by
  intro alg f i b n more hf
  refine ⟨fun hb => ?_, fun hn => decodeFrame_of_lt_ten ?_, fun hmore => decodeFrame_of_gt_ten ?_⟩
  · rw [decodeFrame_toList, checkResponse_error_iff]
    exact ⟨singleByteErrorsAreDetected alg f i b hf hb, rfl⟩
  · simpa using hn
  · simpa using List.length_pos_iff.mpr hmore

end Sys2Proof.Machine
end

section
/-! CS_INIT and CS_BYTE (40_checksum.md R104, R105), one command and a stream of them. -/

namespace Sys2Proof.Machine

variable {s t : State} {g : ConfigRegs}

/-- The state after CS_INIT or CS_BYTE: the accumulator is `acc`, which is also the payload. -/
def accumulated (acc : Byte) (s : State) : State := answered 0#4 [acc] { s with csAcc := acc }

theorem exec_csInit_configured (hc : s.configured = true) : exec .csInit s = .next (accumulated 0x00#8 s) :=
  ifConfigured_pos hc

theorem exec_csByte_configured (hc : s.configured = true) (hg : s.cfg = some g) (b : Byte) :
    exec (.csByte b) s = .next (accumulated (checksumStep g.alg s.csAcc b) s) := by
  rw [exec, execCsByte, ifConfigured_pos hc, readConfig_some hg, withRead_ok]
  rfl

/-- Settles O23: past its one check CS_INIT answers the initial value. -/
theorem csInitClearsTheAccumulator : Obligations.CsInitClearsTheAccumulator := fun _ hc => exec_csInit_configured hc

/-- Settles O24, by the two algorithms, of which the statement names the steps. -/
theorem csByteFoldsOneByte : Obligations.CsByteFoldsOneByte := by
  intro s ⟨alg, _, _, _, _, _, _, _⟩ b hc hg
  cases alg with
  | xor => exact exec_csByte_configured hc hg b
  | crc8 => exact exec_csByte_configured hc hg b

/-- A run of one step more first executes the command the host hands over. -/
theorem run_succ_of_encode {i : Instr} {rest : List Input} (h : s.inputs = .command (encode i) :: rest)
    (hexec : exec i { s with inputs := rest } = .next t) (k : Nat) :
    Host.Core.run core (k + 1) s = Host.Core.run core k t := by
  have hstep : core.step s = .next t :=
    (stepRunsTheDecodedCommand s _ rest i h (decodeOfEncodeIsTheCommand i)).trans hexec
  simp only [Host.Core.run, hstep]

/-- The responses of CS_BYTE for each of `bytes`, from accumulator `acc`. -/
def csByteResponses (alg : Alg) (acc : Byte) (bytes : List Byte) : List (List Byte) :=
  (List.range bytes.length).map fun n => [0x00#8, (bytes.take (n + 1)).foldl (checksumStep alg) acc]

theorem csByteResponses_cons (alg : Alg) (acc b : Byte) (bytes : List Byte) :
    csByteResponses alg acc (b :: bytes) =
      [0x00#8, checksumStep alg acc b] :: csByteResponses alg (checksumStep alg acc b) bytes := by
  simp [csByteResponses, List.range_succ_eq_map]

/-- The invariant of R105 from any accumulator: CS_BYTE for each of `bytes` folds them in, one response a byte. -/
theorem run_csBytes (bytes : List Byte) (rest : List Input) (hc : s.configured = true) (hg : s.cfg = some g)
    (hinputs : s.inputs = asInputs (bytes.map .csByte) ++ rest) (herr : s.lastErr = 0#4) :
    Host.Core.run core bytes.length s = .next { s with
      csAcc := bytes.foldl (checksumStep g.alg) s.csAcc
      inputs := rest
      responses := s.responses ++ csByteResponses g.alg s.csAcc bytes } := by
  induction bytes generalizing s with
  | nil =>
    obtain rfl : s.inputs = rest := hinputs
    simp [Host.Core.run, csByteResponses]
  | cons b bytes ih =>
    have first := exec_csByte_configured (s := { s with inputs := asInputs (bytes.map .csByte) ++ rest }) hc hg b
    have others := ih (s := accumulated (checksumStep g.alg s.csAcc b)
      { s with inputs := asInputs (bytes.map .csByte) ++ rest }) hc hg rfl rfl
    rw [List.length_cons, run_succ_of_encode hinputs first, others, csByteResponses_cons]
    simp [accumulated, answered, statusByte, herr]

/-- Settles O25: CS_INIT leaves the accumulator at the initial value of the checksum's fold. -/
theorem streamedBytesGiveTheChecksum : Obligations.StreamedBytesGiveTheChecksum := by
  intro s g bytes rest hc hg hinputs
  have first := exec_csInit_configured (s := { s with inputs := asInputs (bytes.map .csByte) ++ rest }) hc
  exact (run_succ_of_encode hinputs first _).trans (run_csBytes (s := accumulated _ _) bytes rest hc hg rfl rfl)

end Sys2Proof.Machine
end

section
/-! Rounding against a magnitude that a pattern has: a quotient of a smaller by a larger is at most 1, a product with a
factor of at most 1 is no larger, and zeros stay zeros (41_kinematics.md R124, R127). -/

namespace Sys2Proof.Machine

variable {a b : F64}

/-- Rounding does not pass a magnitude that is one: it goes to a neighbour, and a magnitude that is hit is kept. -/
theorem roundMag_le_of_le {n d m : Nat} (hd : 0 < d) (h : n ≤ bitsMag m * d) : roundMag n d ≤ m := by
  obtain ⟨l, hle, hlt, hnear, -⟩ := roundMagUncut_nearer n hd
  have hstrict : StrictMono fun j => bitsMag j * d := bitsMag_strictMono.mul_const hd
  have hlm : l ≤ m := hstrict.le_iff_le.1 (hle.trans h)
  have huncut : roundMagUncut n d ≤ m := by
    obtain rfl | hlm := hlm.eq_or_lt <;> omega
  exact (min_le_left _ _).trans huncut

theorem roundMag_zero {d : Nat} (hd : 0 < d) : roundMag 0 d = 0 :=
  Nat.le_zero.1 (roundMag_le_of_le hd (Nat.zero_le _))

/-- 1.0. -/
def f64One : F64 := 0x3FF0000000000000#64

/-- 1.0 is the significand `2^52` in the unit `2^1022`, and the value 1 is `2^1074` units. -/
theorem bitsMag_one : bitsMag (magBits f64One) = 2 ^ 1074 := by
  have hbits : magBits f64One = 1022 * 2 ^ 52 + 2 ^ 52 := rfl
  rw [hbits, bitsMag_scaled (by decide) (.inr le_rfl), ← pow_add]

theorem mag_pos (hz : isZero a = false) : 0 < mag a := by
  rw [mag_eq, bitsMag_pos_iff]
  exact isZero_eq_false_iff.1 hz

theorem mag_of_isZero (hz : isZero a = true) : mag a = 0 := by
  rw [mag_eq, isZero_iff.1 hz, bitsMag_zero]

theorem val_of_isZero (hz : isZero a = true) : val a = 0 := val_eq_zero_iff.2 (isZero_iff.1 hz)

/-- A quotient of a magnitude by one at least as large rounds to at most 1. -/
theorem magBits_fdiv_le_one (ha : isFinite a = true) (hb : isFinite b = true) (hz : isZero b = false)
    (h : magBits a ≤ magBits b) : magBits (fdiv a b) ≤ magBits f64One := by
  rw [fdiv_of_isFinite ha hb hz, magBits_ofSignMag (roundMag_le_infMag _ _)]
  refine roundMag_le_of_le (mag_pos hz) ?_
  rw [bitsMag_one, Nat.mul_comm, mag_eq, mag_eq]
  exact Nat.mul_le_mul_left _ (bitsMag_strictMono.monotone h)

/-- A product with a factor of at most 1 rounds to no more than the other operand. -/
theorem magBits_fmul_le (ha : isFinite a = true) (hb : isFinite b = true) (h : magBits b ≤ magBits f64One) :
    magBits (fmul a b) ≤ magBits a := by
  rw [fmul_of_isFinite ha hb, magBits_ofSignMag (roundMag_le_infMag _ _)]
  refine roundMag_le_of_le (pow_pos two_pos 1074) ?_
  rw [← bitsMag_one, mag_eq, mag_eq]
  exact Nat.mul_le_mul_left _ (bitsMag_strictMono.monotone h)

theorem isFinite_of_magBits_le_one (h : magBits a ≤ magBits f64One) : isFinite a = true :=
  isFinite_iff.2 (h.trans_lt (by decide))

/-! ### Zeros (R127) -/

theorem isZero_fmul (ha : isFinite a = true) (hb : isZero b = true) : isZero (fmul a b) = true := by
  rw [fmul_of_isFinite ha (isFinite_of_isZero hb), mag_of_isZero hb, Nat.mul_zero, roundMag_zero (pow_pos two_pos 1074)]
  exact isZero_ofSignMag_zero _

theorem isZero_fdiv (ha : isZero a = true) (hb : isFinite b = true) (hz : isZero b = false) :
    isZero (fdiv a b) = true := by
  rw [fdiv_of_isFinite (isFinite_of_isZero ha) hb hz, mag_of_isZero ha, Nat.zero_mul, roundMag_zero (mag_pos hz)]
  exact isZero_ofSignMag_zero _

theorem isZero_fadd (ha : isZero a = true) (hb : isZero b = true) : isZero (fadd a b) = true :=
  (fadd_exact_zero (isFinite_of_isZero ha) (isFinite_of_isZero hb) (by rw [val_of_isZero ha, val_of_isZero hb]; rfl)).1

theorem isZero_fsub (ha : isZero a = true) (hb : isZero b = true) : isZero (fsub a b) = true :=
  (fsub_exact_zero (isFinite_of_isZero ha) (isFinite_of_isZero hb) (by rw [val_of_isZero ha, val_of_isZero hb]; rfl)).1

theorem roundHalfAway_of_isZero (h : isZero a = true) : roundHalfAway a = 0 := by
  rw [wireRoundingIsHalfAwayFromZero a (isFinite_of_isZero h), val_of_isZero h]
  norm_num [exactRoundHalfAway]

/-! ### Comparison with zero, and of patterns without sign -/

/-- A pattern above zero has no sign and is no zero. -/
theorem pos_of_fgt_zero (ha : isFinite a = true) (h : fgt a f64Zero = true) :
    signBit a = false ∧ 0 < magBits a := by
  have hkey := (fgt_iff (isNaN_of_isFinite ha) (by decide)).1 h
  rw [show orderKey f64Zero = 0 from rfl] at hkey
  cases hs : signBit a with
  | false => rw [orderKey_of_signBit_false hs] at hkey; exact ⟨rfl, by omega⟩
  | true => rw [orderKey_of_signBit_true hs] at hkey; omega

/-- Without signs, finite patterns compare as their bits 62:0. -/
theorem fgt_iff_magBits_lt (ha : isFinite a = true) (hb : isFinite b = true) (hsa : signBit a = false)
    (hsb : signBit b = false) : fgt a b = true ↔ magBits b < magBits a := by
  rw [fgt_iff (isNaN_of_isFinite ha) (isNaN_of_isFinite hb), orderKey_of_signBit_false hsa,
    orderKey_of_signBit_false hsb, Nat.cast_lt]

end Sys2Proof.Machine
end

section
/-! Saturation (41_kinematics.md R123, R124): its one factor lies between 0 and 1, so finite speeds stay finite. -/

namespace Sys2Proof.Machine

variable {limit : F64} {w : Vector F64 4}

theorem fmax_eq_or (a b : F64) : fmax a b = a ∨ fmax a b = b := by
  rw [fmax]; split
  · exact .inr rfl
  · exact .inl rfl

/-- The largest magnitude is that of one of the wheels. -/
theorem exists_maxAbs_eq (w : Vector F64 4) : ∃ i : Fin 4, maxAbs w = fabs w[i] := by
  rw [maxAbs, fmax4]
  obtain h | h := fmax_eq_or (fmax (fmax (fabs w[0]) (fabs w[1])) (fabs w[2])) (fabs w[3]) <;> rw [h]
  · obtain h | h := fmax_eq_or (fmax (fabs w[0]) (fabs w[1])) (fabs w[2]) <;> rw [h]
    · obtain h | h := fmax_eq_or (fabs w[0]) (fabs w[1]) <;> rw [h]
      · exact ⟨0, rfl⟩
      · exact ⟨1, rfl⟩
    · exact ⟨2, rfl⟩
  · exact ⟨3, rfl⟩

theorem signBit_maxAbs (w : Vector F64 4) : signBit (maxAbs w) = false := by
  obtain ⟨i, hi⟩ := exists_maxAbs_eq w
  rw [hi, signBit_fabs]

theorem isFinite_maxAbs (hw : ∀ i : Fin 4, isFinite w[i] = true) : isFinite (maxAbs w) = true := by
  obtain ⟨i, hi⟩ := exists_maxAbs_eq w
  rw [hi, isFinite_iff, magBits_fabs]
  exact isFinite_iff.1 (hw i)

theorem magBits_maxAbs_of_isZero (hw : ∀ i : Fin 4, isZero w[i] = true) : magBits (maxAbs w) = 0 := by
  obtain ⟨i, hi⟩ := exists_maxAbs_eq w
  rw [hi, magBits_fabs]
  exact isZero_iff.1 (hw i)

theorem allFinite_iff : allFinite w = true ↔ ∀ i : Fin 4, isFinite w[i] = true := by
  simp [allFinite, Fin.forall_fin_succ, and_assoc]

/-- The factor of R123, when it is asked for: it has no sign and is at most 1. -/
theorem scaleFactor_bounds (hl : isFinite limit = true) (hpos : fgt limit f64Zero = true)
    (hw : ∀ i : Fin 4, isFinite w[i] = true) (hm : fgt (maxAbs w) limit = true) :
    signBit (fdiv limit (maxAbs w)) = false ∧ magBits (fdiv limit (maxAbs w)) ≤ magBits f64One := by
  have hfin := isFinite_maxAbs hw
  have hsign := (pos_of_fgt_zero hl hpos).1
  have hlt := (fgt_iff_magBits_lt hfin hl (signBit_maxAbs w) hsign).1 hm
  have hle := magBits_fdiv_le_one hl hfin (isZero_eq_false_iff.2 (Nat.zero_lt_of_lt hlt)) hlt.le
  refine ⟨?_, hle⟩
  rw [signBit_fdiv (isNaN_of_isFinite (isFinite_of_magBits_le_one hle)), hsign, signBit_maxAbs]
  rfl

/-- R124: every saturated speed is finite. -/
theorem isFinite_saturate (hl : isFinite limit = true) (hpos : fgt limit f64Zero = true)
    (hw : ∀ i : Fin 4, isFinite w[i] = true) (i : Fin 4) : isFinite (saturate limit w).1[i] = true := by
  cases hm : fgt (maxAbs w) limit with
  | false => rw [saturate_unscaled hm]; exact hw i
  | true =>
    obtain ⟨-, hle⟩ := scaleFactor_bounds hl hpos hw hm
    have hscaled := magBits_fmul_le (hw i) (isFinite_of_magBits_le_one hle) hle
    rw [saturate_scaled hm, Fin.getElem_fin, Vector.getElem_map, isFinite_iff]
    exact hscaled.trans_lt (isFinite_iff.1 (hw i))

/-- Settles O52: finiteness of each scaled speed, and the factor's bounds as comparisons. -/
theorem scaledSpeedsStayFinite : Obligations.ScaledSpeedsStayFinite := by
  intro limit w hl hpos hw
  refine ⟨isFinite_saturate hl hpos hw, fun hm => ?_⟩
  obtain ⟨hsign, hle⟩ := scaleFactor_bounds hl hpos hw hm
  have hfin := isFinite_of_magBits_le_one hle
  refine ⟨hfin, ?_, ?_⟩
  · rw [← Bool.not_eq_true, fgt_iff_magBits_lt (by decide) hfin (by decide) hsign, Nat.not_lt]
    exact Nat.zero_le _
  · rw [← Bool.not_eq_true]
    exact fun h => hle.not_gt ((fgt_iff_magBits_lt hfin (by decide) hsign (by decide)).1 h)

end Sys2Proof.Machine
end

section
/-! The exact laws of saturation (41_kinematics.md R128, R130). -/

namespace Sys2Proof.Machine

variable {K : Type} [Field K] [LinearOrder K]

theorem exactSaturate_of_lt {limit : K} {w : Vector K 4} (h : limit < exactMaxAbs w) :
    exactSaturate limit w = (w.map fun x => x * (limit / exactMaxAbs w), true) := if_pos h

theorem exactSaturate_of_le {limit : K} {w : Vector K 4} (h : exactMaxAbs w ≤ limit) :
    exactSaturate limit w = (w, false) := if_neg h.not_gt

/-- One factor that is not negative scales the largest magnitude with the four. -/
theorem exactMaxAbs_map_mul [IsStrictOrderedRing K] (w : Vector K 4) {c : K} (hc : 0 ≤ c) :
    exactMaxAbs (w.map fun x => x * c) = exactMaxAbs w * c := by
  simp only [exactMaxAbs, Vector.getElem_map, abs_mul, abs_of_nonneg hc, max_mul_of_nonneg _ _ hc]

/-- Settles O57: the common factor cancels in a ratio, and takes the largest magnitude to the limit. -/
theorem exactSaturationKeepsRatios : Obligations.ExactSaturationKeepsRatios := by
  intro K _ _ _ limit w hlimit
  refine ⟨fun h => ?_, exactSaturate_of_le⟩
  have hmax : 0 < exactMaxAbs w := hlimit.trans h
  have hfactor : 0 < limit / exactMaxAbs w := div_pos hlimit hmax
  rw [exactSaturate_of_lt h]
  refine ⟨?_, rfl, fun i j _ => ?_⟩
  · rw [exactMaxAbs_map_mul w hfactor.le, mul_div_cancel₀ _ hmax.ne']
  · simp only [Fin.getElem_fin, Vector.getElem_map]
    exact mul_div_mul_right _ _ hfactor.ne'

end Sys2Proof.Machine
end

section
/-! ENCODE_WHEEL (42_frame_codec.md R153). -/

namespace Sys2Proof.Machine

/-- Settles O33: both reads find their values, and the frame is `encode_A` of them. -/
theorem encodeWheelSendsTheSetpoint : Obligations.EncodeWheelSendsTheSetpoint := by
  intro s g k ch mode h hc hg hv hk
  refine (execEncodeWheel_valid hc h hv).trans ?_
  rw [readConfig_some hg, withRead_ok, readSetpoints_ok_iff.2 ⟨hv, hk⟩, withRead_ok]
  rfl

end Sys2Proof.Machine
end

section
/-! SOLVE (41_kinematics.md R126): what it answers and writes, and that the readable wheel speeds stay finite. -/

namespace Sys2Proof.Machine

variable {s t : State} {g : ConfigRegs} {vx vy wz : F64}

/-- The state after SOLVE has stored the saturated speeds and the flag `r` and answered them (R126). -/
def setpointsAnswered (s : State) (r : Vector F64 4 × Bool) : State :=
  answered 0#4 (solveBytes r.2 (r.1.map (toWire s.velScale)))
    { s with kt := some { wrad := r.1, wsp := r.1.map (toWire s.velScale) }, ktSat := r.2, ktValid := true }

/-- SOLVE on a configured block: past the two checks of R124 it answers and stores the saturated speeds. -/
theorem execSolve_finite (hc : s.configured = true) (hg : s.cfg = some g) (hx : isFinite vx = true)
    (hy : isFinite vy = true) (hz : isFinite wz = true)
    (hw : allFinite (wheelSpeeds g.rc g.radius vx vy wz) = true) :
    execSolve vx vy wz s =
      .next (setpointsAnswered s (saturate g.limit (wheelSpeeds g.rc g.radius vx vy wz))) := by
  rw [execSolve, ifConfigured_pos hc, if_pos (by simp [hx, hy, hz]), readConfig_some hg, withRead_ok]
  exact if_pos hw

theorem execSolve_operand_not_finite (hc : s.configured = true)
    (h : isFinite vx = false ∨ isFinite vy = false ∨ isFinite wz = false) :
    execSolve vx vy wz s = raise .nonFinite s := by
  rw [execSolve, ifConfigured_pos hc]
  refine if_neg fun hall => ?_
  simp only [Bool.and_eq_true] at hall
  obtain ⟨⟨hx, hy⟩, hz⟩ := hall
  simp [hx, hy, hz] at h

theorem execSolve_speed_not_finite (hc : s.configured = true) (hg : s.cfg = some g)
    (hw : allFinite (wheelSpeeds g.rc g.radius vx vy wz) = false) : execSolve vx vy wz s = raise .nonFinite s := by
  rw [execSolve, ifConfigured_pos hc, readConfig_some hg, withRead_ok]
  split
  · exact if_neg (by simp [hw])
  · rfl

/-- Settles O50: the check of the operands, then that of the wheel speeds. -/
theorem solveRejectsNonFiniteValues : Obligations.SolveRejectsNonFiniteValues := by
  intro s g vx vy wz hc hg h
  obtain hx | hy | hz | ⟨i, hi⟩ := h
  · exact execSolve_operand_not_finite hc (.inl hx)
  · exact execSolve_operand_not_finite hc (.inr (.inl hy))
  · exact execSolve_operand_not_finite hc (.inr (.inr hz))
  · refine execSolve_speed_not_finite hc hg (Bool.eq_false_iff.2 fun hall => ?_)
    exact Bool.false_ne_true (hi.symm.trans (allFinite_iff.1 hall i))

/-- R123 wheel by wheel: the one factor, or the speed as it is. -/
theorem saturate_eq_map (limit : F64) (w : Vector F64 4) :
    saturate limit w =
      (w.map fun x => if fgt (maxAbs w) limit then fmul x (fdiv limit (maxAbs w)) else x, fgt (maxAbs w) limit) := by
  cases hm : fgt (maxAbs w) limit with
  | false => simp [saturate_unscaled hm]
  | true => simp [saturate_scaled hm]

theorem vector_map_four {α β : Type} (f : α → β) (a b c d : α) :
    (#v[a, b, c, d]).map f = #v[f a, f b, f c, f d] := by simp

/-- Settles O49: the four speeds of R122 and the saturation of R123, wheel by wheel. -/
theorem solveWritesTheSetpoints : Obligations.SolveWritesTheSetpoints := by
  intro s g vx vy wz hc hg hx hy hz t w0 w1 w2 w3 h0 h1 h2 h3
  have hw : allFinite (wheelSpeeds g.rc g.radius vx vy wz) = true := by
    change (isFinite w0 && isFinite w1 && isFinite w2 && isFinite w3) = true
    rw [h0, h1, h2, h3]
    rfl
  refine (execSolve_finite hc hg hx hy hz hw).trans ?_
  have hspeeds : wheelSpeeds g.rc g.radius vx vy wz = #v[w0, w1, w2, w3] := rfl
  rw [saturate_eq_map, hspeeds, setpointsAnswered]
  simp only [vector_map_four]
  rfl

/-! ### Zero velocities (R127) -/

theorem isZero_wheelSpeeds {rc radius : F64} (hrc : isFinite rc = true) (hr : isFinite radius = true)
    (hrz : isZero radius = false) (hx : isZero vx = true) (hy : isZero vy = true) (hz : isZero wz = true)
    (i : Fin 4) : isZero (wheelSpeeds rc radius vx vy wz)[i] = true := by
  have ht := isZero_fmul hrc hz
  have hadd := isZero_fadd hx hy
  have hsub := isZero_fsub hx hy
  fin_cases i
  · exact isZero_fdiv (isZero_fsub hsub ht) hr hrz
  · exact isZero_fdiv (isZero_fadd hadd ht) hr hrz
  · exact isZero_fdiv (isZero_fsub hadd ht) hr hrz
  · exact isZero_fdiv (isZero_fadd hsub ht) hr hrz

theorem saturate_of_isZero {limit : F64} {w : Vector F64 4} (hl : isFinite limit = true)
    (hpos : fgt limit f64Zero = true) (hw : ∀ i : Fin 4, isZero w[i] = true) : saturate limit w = (w, false) := by
  refine saturate_unscaled (Bool.eq_false_iff.2 fun hm => ?_)
  have hfin := isFinite_maxAbs fun i => isFinite_of_isZero (hw i)
  have hlt := (fgt_iff_magBits_lt hfin hl (signBit_maxAbs w) (pos_of_fgt_zero hl hpos).1).1 hm
  rw [magBits_maxAbs_of_isZero hw] at hlt
  exact Nat.not_lt_zero _ hlt

/-- The divisor `2 * PI64` of R125. -/
theorem twoPi_finite_not_zero :
    isFinite (fmul f64Two Config.pi64) = true ∧ isZero (fmul f64Two Config.pi64) = false := by decide +kernel

theorem toWire_of_isZero {v w : F64} (hv : isFinite v = true) (hw : isZero w = true) : toWire v w = 0#16 := by
  obtain ⟨hfin, hnz⟩ := twoPi_finite_not_zero
  have hsixty : isZero (fmul w f64Sixty) = true := fmul_comm f64Sixty w ▸ isZero_fmul (by decide) hw
  have hrpm := isZero_fdiv hsixty hfin hnz
  have hscaled : isZero (fmul (fdiv (fmul w f64Sixty) (fmul f64Two Config.pi64)) v) = true :=
    fmul_comm v _ ▸ isZero_fmul hv hrpm
  rw [toWire, roundHalfAway_of_isZero hscaled]
  rfl

/-- Settles O51: zeros pass through R122 and R123, and each is 0 on the wire. -/
theorem zeroVelocityGivesZeroSetpoints : Obligations.ZeroVelocityGivesZeroSetpoints := by
  intro s g vx vy wz hc hg hlegal hv hx hy hz
  have hradius := pos_of_fgt_zero hlegal.radius_finite hlegal.radius_pos
  have hw := isZero_wheelSpeeds hlegal.rc_finite hlegal.radius_finite (isZero_eq_false_iff.2 hradius.2) hx hy hz
  have hfin := allFinite_iff.2 fun i => isFinite_of_isZero (hw i)
  have hsat := saturate_of_isZero hlegal.limit_finite hlegal.limit_pos hw
  have hexec := execSolve_finite hc hg (isFinite_of_isZero hx) (isFinite_of_isZero hy) (isFinite_of_isZero hz) hfin
  rw [hsat] at hexec
  generalize wheelSpeeds g.rc g.radius vx vy wz = w at hw hexec
  have hwire (i : Fin 4) : (w.map (toWire s.velScale))[i] = 0#16 := by
    rw [Fin.getElem_fin, Vector.getElem_map]
    exact toWire_of_isZero hv (hw i)
  have hbytes : solveBytes false (w.map (toWire s.velScale)) = List.replicate 9 0#8 := by
    have hzero : w.map (toWire s.velScale) = Vector.replicate 4 0#16 := by
      ext1 i hi
      rw [Vector.getElem_replicate]
      exact hwire ⟨i, hi⟩
    rw [hzero]
    rfl
  refine ⟨⟨w, w.map (toWire s.velScale)⟩, fun i => ⟨hw i, hwire i⟩, hexec.trans ?_⟩
  rw [setpointsAnswered, hbytes]
  rfl

/-! ### The readable wheel speeds stay finite (R124) -/

theorem WheelSpeedsFinite.of_kt_eq (hs : WheelSpeedsFinite s) (hv : t.ktValid = s.ktValid) (hk : t.kt = s.kt) :
    WheelSpeedsFinite t := fun h k hkt => hs (hv ▸ h) k (hk ▸ hkt)

theorem wheelSpeedsFinite_of_invalid (h : t.ktValid = false) : WheelSpeedsFinite t := fun hv =>
  absurd (h.symm.trans hv) Bool.false_ne_true

theorem WheelSpeedsFinite.of_raise {e : ErrCode} (hs : WheelSpeedsFinite s) (h : raise e s = .next t) :
    WheelSpeedsFinite t := by
  obtain rfl := Host.Outcome.next.inj h
  exact hs.of_kt_eq rfl rfl

/-- SOLVE stores saturated speeds, under a legal limit, or leaves the stored ones. -/
theorem execSolve_wheelSpeedsFinite (hinv : Inv s) (hs : WheelSpeedsFinite s) (h : execSolve vx vy wz s = .next t) :
    WheelSpeedsFinite t := by
  obtain ⟨g, -, hg, hw, h⟩ | ⟨-, h⟩ | ⟨-, h⟩ := execSolve_next h
  · obtain rfl := Host.Outcome.next.inj h
    intro _ k hk
    obtain rfl := Option.some.inj hk
    have hlegal := hinv.config_legal g hg
    exact allFinite_iff.2 (isFinite_saturate hlegal.limit_finite hlegal.limit_pos (allFinite_iff.1 hw))
  · exact hs.of_raise h
  · exact hs.of_raise h

/-- Of the commands CONFIGURE withdraws the speeds, SOLVE writes them, and the others leave them. -/
theorem exec_wheelSpeedsFinite {i : Instr} (hinv : Inv s) (hs : WheelSpeedsFinite s) (h : exec i s = .next t) :
    WheelSpeedsFinite t := by
  obtain ⟨code, data, u, he, ht⟩ := exec_next h
  cases he with
  | solve => exact execSolve_wheelSpeedsFinite hinv hs h
  | configure | configureFailed => exact ht ▸ wheelSpeedsFinite_of_invalid rfl
  | _ => exact ht ▸ hs.of_kt_eq rfl rfl

/-- Settles O53, by the four things a step can do. -/
theorem storedWheelSpeedsStayFinite : Obligations.StoredWheelSpeedsStayFinite := fun s t hinv hs h => by
  obtain ⟨-, rfl⟩ | ⟨rest, -, rfl⟩ | ⟨bytes, rest, -, rfl⟩ | ⟨bytes, rest, i, hin, hd, -⟩ := step_next h
  · exact hs
  · exact wheelSpeedsFinite_of_invalid rfl
  · exact hs.of_kt_eq rfl rfl
  · have hexec := (stepRunsTheDecodedCommand s bytes rest i hin hd).symm.trans h
    exact exec_wheelSpeedsFinite (hinv.withInputs rest) (hs.of_kt_eq rfl rfl) hexec

end Sys2Proof.Machine
end

section
/-! DECODE (42_frame_codec.md R157 to R160): what it finds in the state, and what it makes of that. -/

namespace Sys2Proof.Machine

variable {s t : State} {g : ConfigRegs} {c : Fin Config.nch} {f : Frame}

/-- What DECODE finds on channel `c`: telemetry or an error, the count looked at before anything else is read. -/
def decodeVerdict (s : State) (c : Fin Config.nch) : Except Fault (Except ErrCode Telemetry) :=
  if (chanOf s c).rxLen.toNat < 10 then .ok (.error .shortRead)
  else if 10 < (chanOf s c).rxLen.toNat then .ok (.error .malformedLength)
  else do
    let g ← readConfig s
    let f ← readRxFrame (chanOf s c)
    pure (checkResponse g.alg f)

/-- The code DECODE answers to a verdict. -/
def verdictCode : Except ErrCode Telemetry → BitVec 4
  | .ok _ => 0#4
  | .error e => errCode e

/-- The payload DECODE answers to a verdict. -/
def verdictPayload : Except ErrCode Telemetry → List Byte
  | .ok r => telemetryBytes r
  | .error _ => []

/-- A verdict's effect on the channel: telemetry is latched, an error makes it unavailable. -/
def latchVerdict (k : Channel) : Except ErrCode Telemetry → Channel
  | .ok r => { k with tel := some r, telValid := true }
  | .error _ => { k with telValid := false }

/-- The state after DECODE has answered a verdict. -/
def decoded (s : State) (c : Fin Config.nch) (v : Except ErrCode Telemetry) : State :=
  answered (verdictCode v) (verdictPayload v) (setChan s c (latchVerdict (chanOf s c) v))

/-- DECODE is the two checks of every command on a channel, its verdict, and the answer to that. -/
theorem execDecode_eq (ch : Byte) (s : State) : execDecode ch s = ifConfigured s (withChannel ch s fun c =>
    withRead (decodeVerdict s c) fun v => .next (decoded s c v)) := by
  rw [execDecode]
  congr 2
  funext c
  dsimp only
  rw [decodeVerdict]
  split
  · rfl
  split
  · rfl
  cases readConfig s with
  | error => rfl
  | ok g =>
    cases readRxFrame (chanOf s c) with
    | error => rfl
    | ok f =>
      change _ = Host.Outcome.next (decoded s c (checkResponse g.alg f))
      rw [withRead_ok, withRead_ok]
      cases checkResponse g.alg f with
      | error => rfl
      | ok => rfl

/-- DECODE on a configured block and a channel of it. -/
theorem exec_decode_eq {ch : Byte} (hc : s.configured = true) (h : ch.toNat < Config.nch) : exec (.decode ch) s =
    withRead (decodeVerdict s ⟨ch.toNat, h⟩) fun v => .next (decoded s ⟨ch.toNat, h⟩ v) := by
  rw [exec, execDecode_eq, onChannel_pos hc h]

theorem exec_decode_of_verdict {ch : Byte} {v : Except ErrCode Telemetry} (hc : s.configured = true)
    (h : ch.toNat < Config.nch) (hv : decodeVerdict s ⟨ch.toNat, h⟩ = .ok v) :
    exec (.decode ch) s = .next (decoded s ⟨ch.toNat, h⟩ v) := by
  rw [exec_decode_eq hc h, hv, withRead_ok]

/-! ### The verdict, by the count of bytes -/

theorem decodeVerdict_of_lt_ten (h : (chanOf s c).rxLen.toNat < 10) : decodeVerdict s c = .ok (.error .shortRead) :=
  if_pos h

theorem decodeVerdict_of_gt_ten (h : 10 < (chanOf s c).rxLen.toNat) :
    decodeVerdict s c = .ok (.error .malformedLength) := by
  rw [decodeVerdict, if_neg (by omega), if_pos h]

theorem decodeVerdict_of_eq_ten (hg : s.cfg = some g) (hl : (chanOf s c).rxLen.toNat = 10)
    (hb : (chanOf s c).rxb = f.map some) : decodeVerdict s c = .ok (checkResponse g.alg f) := by
  rw [decodeVerdict, if_neg (by omega), if_neg (by omega), readConfig_some hg, readRxFrame_full (by omega) hb]
  rfl

/-- Settles O37: either count decides the verdict by itself. -/
theorem decodeRejectsEveryOtherLength : Obligations.DecodeRejectsEveryOtherLength := fun _ _ h hc =>
  ⟨fun hl => exec_decode_of_verdict hc h (decodeVerdict_of_lt_ten hl),
    fun hl => exec_decode_of_verdict hc h (decodeVerdict_of_gt_ten hl)⟩

/-- Settles O38: the frame that the ten bytes are does not verify. -/
theorem decodeRejectsABadChecksum : Obligations.DecodeRejectsABadChecksum := by
  intro s g ch f h hc hg hl hb hsum
  have bad : frameVerifies g.alg f = false := beq_eq_false_iff_ne.mpr ((frameBody_eq f).symm ▸ hsum)
  have verdict := decodeVerdict_of_eq_ten (c := ⟨ch.toNat, h⟩) hg (congrArg BitVec.toNat hl) hb
  rw [checkResponse_error_iff.mpr ⟨bad, rfl⟩] at verdict
  exact exec_decode_of_verdict hc h verdict

/-! ### DECODE again -/

/-- The verdict reads the configuration and the receive buffer, and nothing else. -/
theorem decodeVerdict_congr (hcfg : t.cfg = s.cfg) (hlen : (chanOf t c).rxLen = (chanOf s c).rxLen)
    (hrxb : (chanOf t c).rxb = (chanOf s c).rxb) : decodeVerdict t c = decodeVerdict s c := by
  have config : readConfig t = readConfig s := by rw [readConfig, hcfg, readConfig]
  have byte (i : Fin 10) : readRx (chanOf t c) i = readRx (chanOf s c) i := by rw [readRx, hlen, hrxb, readRx]
  have frame : readRxFrame (chanOf t c) = readRxFrame (chanOf s c) := by simp only [readRxFrame, byte]
  rw [decodeVerdict, hlen, config, frame, decodeVerdict]

theorem chanOf_answered_setChan (code : BitVec 4) (data : List Byte) (s : State) (c : Fin Config.nch) (k : Channel) :
    chanOf (answered code data (setChan s c k)) c = k := chanOf_setChan_same s c k

section Verdict

variable (k : Channel) (v : Except ErrCode Telemetry)

theorem latchVerdict_rxLen : (latchVerdict k v).rxLen = k.rxLen := by cases v <;> rfl

theorem latchVerdict_rxb : (latchVerdict k v).rxb = k.rxb := by cases v <;> rfl

theorem latchVerdict_latchVerdict : latchVerdict (latchVerdict k v) v = latchVerdict k v := by cases v <;> rfl

theorem chanOf_decoded (s : State) (c : Fin Config.nch) :
    chanOf (decoded s c v) c = latchVerdict (chanOf s c) v := chanOf_answered_setChan ..

theorem decodeVerdict_decoded (s : State) (c : Fin Config.nch) : decodeVerdict (decoded s c v) c = decodeVerdict s c :=
  decodeVerdict_congr rfl (by rw [chanOf_decoded, latchVerdict_rxLen]) (by rw [chanOf_decoded, latchVerdict_rxb])

/-- Answering the same verdict again only adds its response: the channel stands as the first time left it. -/
theorem decoded_decoded (s : State) (c : Fin Config.nch) :
    decoded (decoded s c v) c v = answered (verdictCode v) (verdictPayload v) (decoded s c v) := by
  rw [decoded, chanOf_decoded, latchVerdict_latchVerdict, ← chanOf_decoded, setChan_chanOf]

end Verdict

/-- A command that raises its error whenever `CONFIGURED` is as it is in `s` raises it again after it. -/
theorem raise_repeats {i : Instr} {e : ErrCode} (hi : ∀ u : State, u.configured = s.configured → exec i u = raise e u)
    (h : exec i s = .next t) :
    ∃ r, t.responses = s.responses ++ [r] ∧ exec i t = .next { t with responses := t.responses ++ [r] } := by
  obtain rfl := Host.Outcome.next.inj ((hi s rfl).symm.trans h)
  exact ⟨_, rfl, hi _ rfl⟩

/-- Settles O41: the errors of every command on a channel are raised again, and so the verdict is met again, because
DECODE leaves alone what it rests on. -/
theorem decodeIsRepeatable : Obligations.DecodeIsRepeatable := by
  intro s t ch h
  cases hc : s.configured with
  | false => exact raise_repeats (fun u hu => ifConfigured_neg (hu.trans hc)) h
  | true =>
    rcases Nat.lt_or_ge ch.toNat Config.nch with hch | hch
    · rw [exec_decode_eq hc hch] at h
      obtain ⟨v, hv, h⟩ := withRead_next h
      obtain rfl := Host.Outcome.next.inj h
      have second := exec_decode_of_verdict (s := decoded s ⟨ch.toNat, hch⟩ v) hc hch
        ((decodeVerdict_decoded v s _).trans hv)
      rw [decoded_decoded] at second
      exact ⟨_, rfl, second⟩
    · exact raise_repeats (fun u hu => onChannel_badChannel (hu.trans hc) hch) h

end Sys2Proof.Machine
end

section
/-! Byte sequences received with RX_CLEAR and RX_PUSH (42_frame_codec.md R155, R156, R161): the buffer holds the first
ten bytes of the sequence and the count its length, as far as it goes. -/

namespace Sys2Proof.Machine

variable {s t : State} {g : ConfigRegs} {c : Fin Config.nch} {k : Channel} {ch : Byte} {bytes : List Byte}
  {rest : List Input}

/-- The whole of RX_CLEAR on a configured block and a channel of it. -/
theorem exec_rxClear_configured (hc : s.configured = true) (h : ch.toNat < Config.nch) :
    exec (.rxClear ch) s = ok [] (setChan s ⟨ch.toNat, h⟩ (clearRx (chanOf s ⟨ch.toNat, h⟩))) := onChannel_pos hc h

/-- Settles O35: past the two checks of every command on a channel RX_CLEAR clears it. -/
theorem rxClearEmptiesTheBuffer : Obligations.RxClearEmptiesTheBuffer := fun _ _ h hc => exec_rxClear_configured hc h

/-- The receive buffer of `k` is what the bytes of a sequence leave there: the count saturates at 255, slots past the
sequence hold no value. -/
structure Received (bytes : List Byte) (k : Channel) : Prop where
  count : k.rxLen.toNat = min bytes.length 255
  slots : ∀ i : Fin 10, k.rxb[i] = bytes[i.val]?

theorem received_clearRx (k : Channel) : Received [] (clearRx k) where
  count := rfl
  slots i := by simp

theorem Received.pushRx (hk : Received bytes k) (b : Byte) : Received (bytes ++ [b]) (pushRx k b) where
  count := by
    rw [toNat_pushRx_rxLen, hk.count, List.length_append, List.length_singleton]
    split <;> omega
  slots i := by
    rw [pushRx_rxb_getElem, hk.count, hk.slots]
    rcases Nat.lt_trichotomy i.val bytes.length with inside | last | past
    · rw [if_neg (by omega), List.getElem?_append_left inside]
    · rw [if_pos (by omega), last, List.getElem?_concat_length]
    · rw [if_neg (by omega), List.getElem?_eq_none (by omega), List.getElem?_eq_none (by simpa using past)]

/-- DECODE's verdict on a received sequence is `decode_A` of it, also where the count has saturated (R161). -/
theorem Received.decodeVerdict (hk : Received bytes (chanOf s c)) (hg : s.cfg = some g) :
    decodeVerdict s c = .ok (decodeFrame g.alg bytes) := by
  have count := hk.count
  rcases Nat.lt_trichotomy bytes.length 10 with short | ten | long
  · rw [decodeFrame_of_lt_ten short, decodeVerdict_of_lt_ten (by omega)]
  · obtain ⟨f, rfl⟩ : ∃ f : Frame, f.toList = bytes := ⟨⟨bytes.toArray, ten⟩, rfl⟩
    have slots : (chanOf s c).rxb = f.map some := by
      ext1 i hi
      simpa [hi] using hk.slots ⟨i, hi⟩
    rw [decodeVerdict_of_eq_ten hg (by omega) slots, decodeFrame_toList]
  · rw [decodeFrame_of_gt_ten long, decodeVerdict_of_gt_ten (by omega)]

/-- `t`, come from `s`, is configured as `s` is and has received `bytes` on channel `c`, the telemetry there being the
old one; the host's inputs `rest` are still to come. -/
structure HasReceived (s : State) (c : Fin Config.nch) (bytes : List Byte) (rest : List Input) (t : State) : Prop where
  configured : t.configured = true
  cfg : t.cfg = s.cfg
  inputs : t.inputs = rest
  buffer : Received bytes (chanOf t c)
  tel : (chanOf t c).tel = (chanOf s c).tel

/-- A command that writes channel `c` alone and answers success, in a run. -/
theorem run_channelWrite {i : Instr} {data : List Byte} (hc : t.configured = true) (hcfg : t.cfg = s.cfg)
    (hinputs : t.inputs = .command (encode i) :: rest)
    (hexec : exec i { t with inputs := rest } = ok data (setChan { t with inputs := rest } c k))
    (hbuffer : Received bytes k) (htel : k.tel = (chanOf s c).tel) :
    ∃ u, HasReceived s c bytes rest u ∧ ∀ j, Host.Core.run core (j + 1) t = Host.Core.run core j u := by
  have chan : chanOf (answered 0#4 data (setChan { t with inputs := rest } c k)) c = k := chanOf_answered_setChan ..
  refine ⟨answered 0#4 data (setChan { t with inputs := rest } c k), ?_, run_succ_of_encode hinputs hexec⟩
  exact { configured := hc, cfg := hcfg, inputs := rfl, buffer := by rwa [chan], tel := by rwa [chan] }

theorem run_rxClear (hc : s.configured = true) (h : ch.toNat < Config.nch)
    (hinputs : s.inputs = .command (encode (.rxClear ch)) :: rest) :
    ∃ t, HasReceived s ⟨ch.toNat, h⟩ [] rest t ∧ ∀ j, Host.Core.run core (j + 1) s = Host.Core.run core j t :=
  run_channelWrite hc rfl hinputs (exec_rxClear_configured (s := { s with inputs := rest }) hc h)
    (received_clearRx _) rfl

theorem HasReceived.run_rxPush {h : ch.toNat < Config.nch} {b : Byte}
    (ht : HasReceived s ⟨ch.toNat, h⟩ bytes (.command (encode (.rxPush ch b)) :: rest) t) :
    ∃ u, HasReceived s ⟨ch.toNat, h⟩ (bytes ++ [b]) rest u ∧
      ∀ j, Host.Core.run core (j + 1) t = Host.Core.run core j u :=
  run_channelWrite ht.configured ht.cfg ht.inputs
    (execRxPush_eq (s := { t with inputs := rest }) ht.configured h rfl) (ht.buffer.pushRx b) ht.tel

theorem HasReceived.run_rxPushes {h : ch.toNat < Config.nch} (more : List Byte)
    (ht : HasReceived s ⟨ch.toNat, h⟩ bytes (asInputs (more.map (.rxPush ch)) ++ rest) t) :
    ∃ u, HasReceived s ⟨ch.toNat, h⟩ (bytes ++ more) rest u ∧
      ∀ j, Host.Core.run core (j + more.length) t = Host.Core.run core j u := by
  induction more generalizing bytes t with
  | nil => exact ⟨t, by simpa [asInputs] using ht, fun j => rfl⟩
  | cons b more ih =>
    obtain ⟨u, hu, hrun⟩ := ht.run_rxPush
    obtain ⟨v, hv, hruns⟩ := ih hu
    exact ⟨v, by simpa using hv, fun j => (hrun (j + more.length)).trans (hruns j)⟩

/-- Settles O40: RX_CLEAR empties the buffer, the RX_PUSHes fill it with the sequence, and DECODE's verdict is on
that. -/
theorem receivedBytesDecodeAsTheSequence : Obligations.ReceivedBytesDecodeAsTheSequence := by
  intro s g ch bytes rest h hc hg hinputs
  have hin : s.inputs = .command (encode (.rxClear ch)) ::
      (asInputs (bytes.map (.rxPush ch)) ++ .command (encode (.decode ch)) :: rest) := by
    simpa [asInputs] using hinputs
  obtain ⟨t, ht, hclear⟩ := run_rxClear hc h hin
  obtain ⟨u, hu, hpushes⟩ := ht.run_rxPushes
  have verdict : decodeVerdict { u with inputs := rest } ⟨ch.toNat, h⟩ = .ok (decodeFrame g.alg bytes) :=
    Received.decodeVerdict hu.buffer (hu.cfg.trans hg)
  have length : bytes.length + 2 = 1 + bytes.length + 1 := by omega
  rw [length, hclear, hpushes]
  generalize decodeFrame g.alg bytes = v at verdict ⊢
  refine ⟨decoded { u with inputs := rest } ⟨ch.toNat, h⟩ v,
    run_succ_of_encode hu.inputs (exec_decode_of_verdict (s := { u with inputs := rest }) hu.configured h verdict) 0,
    rfl, ?_⟩
  have chan := chanOf_decoded v { u with inputs := rest } ⟨ch.toNat, h⟩
  cases v with
  | ok r =>
    exact ⟨rfl, congrArg Channel.telValid chan, congrArg Channel.tel chan, List.getLast?_concat ..⟩
  | error e =>
    exact ⟨rfl, congrArg Channel.telValid chan, (congrArg Channel.tel chan).trans hu.tel, List.getLast?_concat ..⟩

end Sys2Proof.Machine
end

section
/-! Requests: ENCODE_WHEEL without a setpoint (42_frame_codec.md R153), and `encode_A`'s frames read as responses
(R163). -/

namespace Sys2Proof.Machine

/-- Settles O34: the setpoint's validity is looked at right after the channel. -/
theorem encodeWheelNeedsASetpoint : Obligations.EncodeWheelNeedsASetpoint := fun _ _ _ hc h hv =>
  (onChannel_pos hc h).trans (if_neg (by simp [hv]))

/-- The fields of a request in the response's layout: the velocity where a response has its torque, the acceleration
time as the high byte of a velocity. -/
theorem telemetry_encodeFrame (alg : Alg) (mid mode : Byte) (vel : Half) (accel : Byte) :
    telemetry (encodeFrame alg mid mode vel accel) =
      { mid := mid, mode := mode, torque := ofHiLo (hiByte vel) (loByte vel), vel := accel ++ 0x00#8, temp := 0x00#8,
        pos := 0#9, err := 0x00#8 } := by
  have pos : positionDegrees 0x00#8 = 0#9 := rfl
  rw [← pos]
  rfl

/-- Settles O42: a request verifies, so it decodes to what its bytes are in the response's layout. -/
theorem encodedRequestsDecode : Obligations.EncodedRequestsDecode := by
  intro alg mid mode accel vel
  rw [decodeFrame_toList, checkResponse_of_verifies (frameVerifies_encodeFrame ..), telemetry_encodeFrame,
    ofHiLo_hiByte_loByte]

end Sys2Proof.Machine
end

section
/-! The position in degrees (42_frame_codec.md R160). -/

namespace Sys2Proof.Machine

/-- The degrees fit the register's nine bits. -/
theorem toNat_positionDegrees (p : Byte) : (positionDegrees p).toNat = p.toNat * 360 / 255 := by
  have hp := p.isLt
  rw [positionDegrees, BitVec.toNat_ofNat, Nat.mod_eq_of_lt (by omega)]

/-- Settles O44: a step of one byte is more than one degree, so truncation keeps the order. -/
theorem positionStaysInRange : Obligations.PositionStaysInRange := by
  intro p q
  have hp := p.isLt
  have hq := q.isLt
  simp only [toNat_positionDegrees, BitVec.lt_def, ← BitVec.toNat_inj, BitVec.toNat_ofNat]
  omega

end Sys2Proof.Machine
end

section
/-! CONFIGURE (43_configure.md R190 to R194): when its operands are accepted, and the state each outcome leaves. -/

namespace Sys2Proof.Machine

variable {s : State} {alg : Byte} {hl hw radius rated : F64} {midmask mid0 mid1 mid2 mid3 : Byte}

/-! ### Validation (R191) -/

/-- The checks are those of the values latched (R25), and two that no register shows: `alg` and the mask. -/
theorem configValid_iff (v : F64) (mid0 mid1 mid2 mid3 : Byte) :
    configValid v alg hl hw radius rated midmask = true ↔
      alg.toNat ≤ 1 ∧ midmask &&& 0x0F#8 = 0x0F#8 ∧
        ConfigLegal v (configRegs alg hl hw radius rated mid0 mid1 mid2 mid3) := by
  constructor
  · intro h
    have legal := configLegal_of_configValid mid0 mid1 mid2 mid3 h
    simp only [configValid, Bool.and_eq_true, decide_eq_true_eq, beq_iff_eq] at h
    obtain ⟨⟨⟨⟨⟨⟨⟨halg, -⟩, -⟩, -⟩, -⟩, hmask⟩, -⟩, -⟩ := h
    exact ⟨halg, hmask, legal⟩
  · rintro ⟨halg, hmask, legal⟩
    simp only [configValid, Bool.and_eq_true, Bool.not_eq_true', decide_eq_true_eq, beq_iff_eq]
    exact ⟨⟨⟨⟨⟨⟨⟨halg, legal.hl_finite, legal.hw_finite⟩, legal.radius_finite, legal.radius_pos⟩, legal.rated_finite,
      legal.rated_pos⟩, legal.rated_fits⟩, hmask⟩, legal.rc_finite⟩, legal.limit_finite, legal.limit_pos⟩

/-- All four axle bits of an accepted mask are set. -/
theorem getLsbD_of_and_mask (h : midmask &&& 0x0F#8 = 0x0F#8) (i : Fin 4) : midmask.getLsbD i.val = true := by
  have masked : (midmask &&& 0x0F#8).getLsbD i.val = (0x0F#8).getLsbD i.val := by rw [h]
  have low : (0x0F#8).getLsbD i.val = true := by decide +revert
  simpa [low] using masked

/-- Where R191 lets `alg` be 0 or 1 only, its bit 0 is the whole of it. -/
theorem algOf_of_le_one (h : alg.toNat ≤ 1) : algOf alg = if alg = 0x01#8 then .crc8 else .xor := by
  rcases Nat.le_one_iff_eq_zero_or_eq_one.mp h with zero | one
  · obtain rfl : alg = 0x00#8 := BitVec.eq_of_toNat_eq zero
    rfl
  · obtain rfl : alg = 0x01#8 := BitVec.eq_of_toNat_eq one
    rfl

/-! ### The two outcomes (R190, R194) -/

theorem exec_configure_of_valid (h : configValid s.velScale alg hl hw radius rated midmask = true) :
    exec (.configure alg hl hw radius rated midmask mid0 mid1 mid2 mid3) s = .next (answered 0#4 [] { invalidate s with
      cfg := some (configRegs alg hl hw radius rated mid0 mid1 mid2 mid3), configured := true }) := if_pos h

theorem exec_configure_of_invalid (h : configValid s.velScale alg hl hw radius rated midmask ≠ true) :
    exec (.configure alg hl hw radius rated midmask mid0 mid1 mid2 mid3) s =
      .next (answered (errCode .configurationError) [] { invalidate s with cfg := none }) := if_neg h

/-- Either way CONFIGURE has invalidated the state, and writes S1 to S9 on top of that. -/
theorem exec_configure_next : ∃ code cfg configured,
    exec (.configure alg hl hw radius rated midmask mid0 mid1 mid2 mid3) s =
      .next (answered code [] { invalidate s with cfg := cfg, configured := configured }) := by
  by_cases h : configValid s.velScale alg hl hw radius rated midmask = true
  · exact ⟨_, _, _, exec_configure_of_valid h⟩
  · exact ⟨_, _, _, exec_configure_of_invalid h⟩

/-- Settles O45: without a cause the values to latch are legal, and so are latched. -/
theorem configureLatchesLegalOperands : Obligations.ConfigureLatchesLegalOperands := by
  intro s alg hl hw radius rated midmask mid0 mid1 mid2 mid3 rc limit halg hl_finite hw_finite radius_finite radius_pos
    rated_finite rated_pos rated_fits hmask rc_finite limit_finite limit_pos
  have legal : ConfigLegal s.velScale (configRegs alg hl hw radius rated mid0 mid1 mid2 mid3) :=
    { hl_finite, hw_finite, radius_finite, radius_pos, rated_finite, rated_pos, rated_fits, rc_sum := rfl, rc_finite,
      limit_formula := rfl, limit_finite, limit_pos }
  rw [exec_configure_of_valid ((configValid_iff ..).mpr ⟨halg, hmask, legal⟩), configRegs, algOf_of_le_one halg]
  rfl

/-- Settles O46: each of the seven causes is against one of the checks. -/
theorem configureRejectsEachCause : Obligations.ConfigureRejectsEachCause := by
  intro s alg hl hw radius rated midmask mid0 mid1 mid2 mid3 limit cause
  refine exec_configure_of_invalid fun valid => ?_
  obtain ⟨halg, hmask, legal⟩ := (configValid_iff s.velScale mid0 mid1 mid2 mid3).mp valid
  simp only [← Bool.not_eq_true] at cause
  rcases cause with radius_nonpos | rated_nonpos | ⟨i, unset⟩ | bad_alg | nonfinite | too_fast | bad_derived
  · exact radius_nonpos legal.radius_pos
  · exact rated_nonpos legal.rated_pos
  · exact unset (getLsbD_of_and_mask hmask i)
  · omega
  · rcases nonfinite with hl_nonfinite | hw_nonfinite | radius_nonfinite | rated_nonfinite
    · exact hl_nonfinite legal.hl_finite
    · exact hw_nonfinite legal.hw_finite
    · exact radius_nonfinite legal.radius_finite
    · exact rated_nonfinite legal.rated_finite
  · exact Bool.eq_false_iff.mp legal.rated_fits too_fast
  · rcases bad_derived with rc_nonfinite | limit_nonfinite | limit_nonpos
    · exact rc_nonfinite legal.rc_finite
    · exact limit_nonfinite legal.limit_finite
    · exact limit_nonpos legal.limit_pos

/-- Settles O47: both outcomes stand on the invalidated state. -/
theorem configureInvalidatesDependentState : Obligations.ConfigureInvalidatesDependentState := by
  intro s alg hl hw radius rated midmask mid0 mid1 mid2 mid3
  obtain ⟨code, cfg, configured, hexec⟩ := exec_configure_next
  refine ⟨_, hexec, rfl, rfl, rfl, fun c => ?_⟩
  have chan : (s.chans.map invalidateChan)[c] = invalidateChan (chanOf s c) := chanOf_invalidate s c
  exact ⟨congrArg Channel.txValid chan, congrArg Channel.telValid chan, congrArg Channel.rxLen chan⟩

end Sys2Proof.Machine
end

section
/-! Errors (60_exceptions.md R212 to R215): illegal strings, the unconfigured block, and what an error writes. -/

namespace Sys2Proof.Machine

variable {s t u : State} {i : Instr} {code : BitVec 4} {data : List Byte} {op : Byte} {bytes : List Byte}

/-! ### Strings that are no command (R213) -/

/-- The op codes with their lengths (30_encoding.md R81), as a list; `mem_commandMap_of_commandLength` ties it to the
model's `commandLength`. -/
def commandMap : List (Nat × Nat) :=
  [(0x01, 39), (0x10, 1), (0x11, 2), (0x20, 7), (0x21, 3), (0x30, 2), (0x31, 3), (0x32, 2), (0x40, 25)]

theorem mem_commandMap_of_commandLength {n : Nat} (h : commandLength op = some n) : (op.toNat, n) ∈ commandMap := by
  unfold commandLength at h
  split at h
  case h_10 => cases h
  all_goals
    rename_i hop
    obtain rfl := Option.some.inj h
    rw [hop]
    decide

/-- What decodes is listed in the map, so a string the map does not list is a decoding error. -/
theorem decode_error_of_not_mem_commandMap
    (h : ∀ op operands, bytes = op :: operands → (op.toNat, operands.length + 1) ∉ commandMap) :
    ∃ e, Sys2Proof.decode bytes = .error e := by
  cases hd : Sys2Proof.decode bytes with
  | error e => exact ⟨e, rfl⟩
  | ok i =>
    have legal : wellFormedCommand bytes = true := (wellFormedStringsAreThoseThatDecode bytes).mpr ⟨i, hd⟩
    match bytes with
    | op :: operands =>
      exact absurd (mem_commandMap_of_commandLength (wellFormedCommand_cons_iff.mp legal)) (h op operands rfl)

/-- Settles O6: such a string does not decode, and the command port raises ILLEGAL_OP on it. -/
theorem illegalStringsRaiseIllegalOp : Obligations.IllegalStringsRaiseIllegalOp := by
  intro s c rest hinputs hillegal
  obtain ⟨e, he⟩ := decode_error_of_not_mem_commandMap hillegal
  calc step s
      = runCommand c { s with inputs := rest } := step_command hinputs
    _ = raise .illegalOp { s with inputs := rest } := runCommand_of_error he

/-! ### The unconfigured block (R212) -/

theorem exec_unconfigured (hc : s.configured = false) (hi : isConfigure i = false) :
    exec i s = raise .notConfigured s := by
  cases i with
  | configure => cases hi
  | _ => exact ifConfigured_neg hc

theorem isConfigure_eq_false (h : ∀ alg hl hw radius rated midmask mid0 mid1 mid2 mid3,
    i ≠ .configure alg hl hw radius rated midmask mid0 mid1 mid2 mid3) : isConfigure i = false := by
  cases i with
  | configure => exact absurd rfl (h _ _ _ _ _ _ _ _ _ _)
  | _ => rfl

/-- Settles O16: the step runs the command, which checks `CONFIGURED` first. -/
theorem unconfiguredBlockRunsOnlyConfigure : Obligations.UnconfiguredBlockRunsOnlyConfigure := by
  intro s c rest i hinputs hdecode hc hi
  calc step s
      = exec i { s with inputs := rest } := stepRunsTheDecodedCommand s c rest i hinputs hdecode
    _ = raise .notConfigured { s with inputs := rest } := exec_unconfigured hc (isConfigure_eq_false hi)

/-! ### What an error writes (R214, R215) -/

/-- Outside R215's two exceptions an error is an effect that writes nothing. -/
theorem CommandEffect.writes_nothing (he : CommandEffect s i code data u) (hcode : code ≠ 0#4)
    (hconfigure : isConfigure i = false) (hdecode : ∀ ch, i ≠ .decode ch) : u = s := by
  cases he with
  | error => rfl
  | configureFailed => cases hconfigure
  | decodeFailed => exact absurd rfl (hdecode _)
  | _ => exact absurd rfl hcode

theorem exec_error (h : exec i s = .next t) (herr : t.lastErr ≠ 0#4) (hconfigure : isConfigure i = false)
    (hdecode : ∀ ch, i ≠ .decode ch) : t = answered t.lastErr [] s := by
  obtain ⟨code, data, u, he, rfl⟩ := exec_next h
  obtain rfl : u = s := he.writes_nothing herr hconfigure hdecode
  obtain rfl : data = [] := he.payload_nil herr
  rfl

/-- A failed CONFIGURE has invalidated the state (43_configure.md R194). -/
theorem exec_configure_error {alg : Byte} {hl hw radius rated : F64} {midmask mid0 mid1 mid2 mid3 : Byte}
    (h : exec (.configure alg hl hw radius rated midmask mid0 mid1 mid2 mid3) s = .next t) (herr : t.lastErr ≠ 0#4) :
    t = answered (errCode .configurationError) [] { invalidate s with cfg := none } := by
  obtain ⟨-, h⟩ | ⟨-, h⟩ := execConfigure_next h <;> obtain rfl := Host.Outcome.next.inj h
  · exact absurd rfl herr
  · rfl

/-- A DECODE that raises an error fails on its buffer, or at the checks before it looks there. -/
theorem exec_decode_error {ch : Byte} (h : exec (.decode ch) s = .next t) (herr : t.lastErr ≠ 0#4) :
    (∃ (c : Fin Config.nch) (e : ErrCode), c.val = ch.toNat ∧
      (e = .shortRead ∨ e = .malformedLength ∨ e = .checksumMismatch) ∧ t = answered (errCode e) [] (dropTel s c)) ∨
    ∃ e, (e = .notConfigured ∨ e = .badChannel) ∧ t = answered (errCode e) [] s := by
  obtain ⟨_, _, _, -, -, -, -, -, -, h⟩ | ⟨c, e, hn, -, he, h⟩ | ⟨-, h⟩ | ⟨-, h⟩ := execDecode_next h <;>
    obtain rfl := Host.Outcome.next.inj h
  · exact absurd rfl herr
  · exact .inl ⟨c, e, hn, he, rfl⟩
  · exact .inr ⟨_, .inl rfl, rfl⟩
  · exact .inr ⟨_, .inr rfl, rfl⟩

/-- Settles O18, by the command: CONFIGURE and DECODE are R215's exceptions. -/
theorem errorsWriteNothingElse : Obligations.ErrorsWriteNothingElse := by
  intro i s t h herr
  cases i with
  | configure => exact exec_configure_error h herr
  | decode ch =>
    obtain ⟨⟨_, hlt⟩, e, rfl, he, rfl⟩ | ⟨e, he, rfl⟩ := exec_decode_error h herr
    · have buffer_code : errCode e = 2#4 ∨ errCode e = 3#4 ∨ errCode e = 4#4 := by
        obtain rfl | rfl | rfl := he <;> decide
      exact (if_pos buffer_code).mpr ⟨hlt, rfl⟩
    · have other_code : ¬(errCode e = 2#4 ∨ errCode e = 3#4 ∨ errCode e = 4#4) := by
        obtain rfl | rfl := he <;> decide
      exact (if_neg other_code).mpr rfl
  | _ => exact exec_error h herr rfl (by simp)

end Sys2Proof.Machine
end

section
/-! How the exchanges of the host contract end (60_exceptions.md R230, R233, R235). -/

namespace Sys2Proof.Machine

variable {r : Bool} {x y : ExchangeState} {e : ExchangeEvent}

/-- Only the code 0 validates an awaited exchange: DECODE's three failures have codes of their own. -/
theorem exchangeNext_decodeAnswered_eq_validated_iff {code : BitVec 4} :
    exchangeNext r .awaitingResponse (.decodeAnswered code) = some .validated ↔ code = 0#4 := by
  simp only [exchangeNext]
  split_ifs with mismatch short malformed success
  · simp [mismatch, errCode_ne_zero]
  · simp [short, errCode_ne_zero]
  · simp [malformed, errCode_ne_zero]
  · simp [success]
  · simp [success]

theorem exchangeNext_eq_validated_iff :
    exchangeNext r x e = some .validated ↔ x = .awaitingResponse ∧ e = .decodeAnswered 0#4 := by
  cases e with
  | decodeAnswered code =>
    cases x with
    | awaitingResponse => simp [exchangeNext_decodeAnswered_eq_validated_iff]
    | _ => simp [exchangeNext]
  | _ => simpa using exchangeNext_ne_validated (by simp)

/-- A failed exchange has no move but to be reported (R233). -/
theorem exchangeNext_failed {why : ExchangeError} (h : exchangeNext r (.failed why) e = some y) : y = .idle := by
  cases e with
  | reported => exact (Option.some.inj h).symm
  | _ => cases h

/-- An answer to DECODE is never a timeout (R235). -/
theorem exchangeNext_decodeAnswered_ne_timeoutError {code : BitVec 4} :
    exchangeNext r x (.decodeAnswered code) ≠ some (.failed .timeoutError) := by
  cases x with
  | awaitingResponse =>
    simp only [exchangeNext]
    split_ifs <;> simp
  | _ => simp [exchangeNext]

theorem exchangeNext_eq_timeoutError_iff :
    exchangeNext r x e = some (.failed .timeoutError) ↔ x = .awaitingResponse ∧ e = .responseTimedOut := by
  cases e with
  | decodeAnswered => simp [exchangeNext_decodeAnswered_ne_timeoutError]
  | responseTimedOut => cases x <;> simp [exchangeNext]
  | _ => cases x <;> cases r <;> simp [exchangeNext]

/-- Settles O59: the moves into `Validated`, out of `Failed`, and into the failure by timeout. -/
theorem exchangesEndAsTheContractSays : Obligations.ExchangesEndAsTheContractSays :=
  ⟨fun _ _ _ => exchangeNext_eq_validated_iff, fun _ _ _ _ => exchangeNext_failed,
    fun _ _ _ => exchangeNext_eq_timeoutError_iff⟩

end Sys2Proof.Machine
end

section
/-! Reset (70_reset_and_hazards.md R260, R262): what it leaves in the registers, and the step that takes it. -/

namespace Sys2Proof.Machine

theorem reset_chans_getElem (c : Fin 4) : State.reset.chans[c] = Channel.reset :=
  Vector.getElem_replicate ..

theorem channelReset_rxb_getElem (i : Fin 10) : Channel.reset.rxb[i] = none :=
  Vector.getElem_replicate ..

/-- Settles O7: the block's own registers by definition, and each channel's because it is the reset channel. -/
theorem resetRegistersHoldTheSpecValues : Obligations.ResetRegistersHoldTheSpecValues := by
  refine ⟨rfl, rfl, rfl, fun c => ?channel, rfl, rfl, rfl, rfl⟩
  case channel =>
    rw [reset_chans_getElem]
    exact ⟨rfl, rfl, rfl, rfl, rfl, channelReset_rxb_getElem⟩

/-- Settles O8: the step that takes a reset is `resetBlock` past that input, which names the three fields kept. -/
theorem resetBetweenCommandsRestoresTheResetState : Obligations.ResetBetweenCommandsRestoresTheResetState :=
  fun _ _ h => step_reset h

end Sys2Proof.Machine
end
